-- ==== Sys2Proof/Word.lean ====
section
/-! DEFINITION. The word types of the engine and the two small enumerations every layer names
(`00_scope.md` R8, R9, `30_encoding.md` R84). -/

namespace Sys2Proof

/-- A 32-bit register, command word or frame word (R22, R70). -/
abbrev Word := BitVec 32

/-- A byte of a buffer or on the wire (R50, R52). -/
abbrev Byte := BitVec 8

/-- A level, a bit on the wire or an acknowledge bit: low, ACK, write = 0; high, NACK, read = 1 (R84). -/
abbrev Bit := BitVec 1

/-- The two physical signals (R8): the clock line and the data line. -/
inductive Line where
  | scl
  | sda
  deriving DecidableEq, Repr, Inhabited

/-- The direction of a pin (R8). -/
inductive Dir where
  | input
  | output
  deriving DecidableEq, Repr, Inhabited

end Sys2Proof
end

