-- ==== Sys2Proof/Config.lean ====
section
/-! DEFINITION. The parameters of the engine (`00_scope.md` R6, `93_implementation_defined.md` V1 to V4, V16),
the answer type of the pin port (R8), and the free values: constants without a body, of which nothing can be proved. -/

namespace Sys2Proof

/-- A pin error kind, `PERR` (R6): the source never enumerates it and the engine passes it through unchanged (R151).
DESIGN CHOICE: any natural number, never inspected (log 12). -/
structure PErr where
  code : Nat
  deriving DecidableEq, Repr, Inhabited

/-- What the pin environment answers to one pin event (R8, R58). The level of `ok` is what `GetVal` reads;
`Export`, `SetDir` and `SetVal` do not look at it (log 1). -/
inductive PinAnswer where
  | ok (level : Bit)
  | err (k : PErr)
  deriving DecidableEq, Repr, Inhabited

/-- The two byte buffers, two separate spaces (R52). -/
inductive Buf where
  | wbuf
  | rbuf
  deriving DecidableEq, Repr, Inhabited

/-! Widths (R6): named parameters with the value the table of R6 gives. -/

/-- `ADDR_W`: the width of a peer address. -/
abbrev Config.addrW : Nat := 7

/-- `FREQ_W`: the width of the frequency register. -/
abbrev Config.freqW : Nat := 32

/-- A peer address. -/
abbrev Addr := BitVec Config.addrW

/-- A frequency in hertz. -/
abbrev Freq := BitVec Config.freqW

/-! Literals of the source, each a named parameter with the source's value as its default (R6). -/

/-- `HALF_NUM`, in microsecond-hertz. -/
def Config.halfNum : Nat := 500000

/-- `PULSES_PER_BURST`: the clock pulses of one recovery burst. -/
def Config.pulsesPerBurst : Nat := 10

/-- `MAX_BURSTS`: the most bursts of one invocation of RECOVER. -/
def Config.maxBursts : Nat := 100

/-- `BURST_PAUSE_US`: the pause after each burst. -/
def Config.burstPauseUs : Nat := 10000

/-- The switch of decision D10 (V16): READ_BIT samples through READ_DATA_IDLE. The rules are written for true. -/
def Config.sampleViaLineController : Bool := true

/-- The switch of decision D14 (V16): RECOVER's two final pulls take the clock first. The rules are written for true. -/
def Config.recoverPullClockFirst : Bool := true

/-! Open parameters: a claim holds for every value (V1, V2). -/

/-- `T_STRETCH_US`: the source gives no number (R6, R92). -/
opaque Config.tStretchUs : Nat

/-- `BUF_MAX`: the capacity of each buffer (R6, R52, V2; log 10). -/
opaque Config.bufMax : Nat

/-- The quotient `HALF_NUM div 0`, of which nothing is known: R9 calls it undefined. No run of the engine needs it, since
NEW raises DivFault first (R130, R152; log 25). -/
opaque Config.halfNumDivZero : Word

/-! Free values: the counter `freeIdx` of the state picks one (log 2). -/

/-- The answer of the pin environment once the scripted answers are used up (R58, V5). -/
opaque Config.freeAnswer : Nat → PinAnswer

/-- What a host read of `CMD` returns (R22, V7). -/
opaque Config.freeCmdRead : Nat → Word

/-- What a host read of `ERRKIND` returns while `RESULT` is not `PIN_FAULT` (R23, V8). -/
opaque Config.freeErrKind : Nat → PErr

/-- `ERRKIND` after hardware reset (R33, V8). -/
opaque Config.errKindAtReset : PErr

/-- Byte `i` of a buffer after hardware reset (R33, V9). -/
opaque Config.bufByteAtReset : Buf → Nat → Byte

end Sys2Proof
end

