-- ==== Sys2Proof/Syntax.lean ====
section
/-! DEFINITION. The fifteen operations (`30_encoding.md` R73), one constructor per row of the opcode table, with the
operands the word carries (R71, R74). Operands that do not travel in the word (`FREQ`, `WLEN`, `RLEN`, the buffers)
are registers of the state. -/

namespace Sys2Proof

inductive Instr where
  /-- NEW (R130), format H with `addr7` = 0. -/
  | new
  /-- WRITE (R131), format H. -/
  | write (adr : Addr)
  /-- READ (R132), format H. -/
  | read (adr : Addr)
  /-- WRITE_READ (R133), format H. -/
  | writeRead (adr : Addr)
  /-- START (R100), format N. -/
  | start
  /-- STOP (R101), format N. -/
  | stop
  /-- WRITE_BIT (R103), format B. -/
  | writeBit (bit : Bit)
  /-- READ_BIT (R102), format N. -/
  | readBit
  /-- WRITE_BYTE (R111), format Y. -/
  | writeByte (byte : Byte)
  /-- READ_BYTE (R110), format B: `sendAck` = 1 is true. -/
  | readByte (sendAck : Bit)
  /-- RECOVER (R120), format N. -/
  | recover
  /-- PULL (R90), format L. -/
  | pull (line : Line)
  /-- RELEASE (R91), format L. -/
  | release (line : Line)
  /-- WAIT_CLOCK_RELEASED (R92), format N. -/
  | waitClockReleased
  /-- READ_DATA_IDLE (R93), format N. -/
  | readDataIdle
  deriving DecidableEq, Repr, Inhabited

end Sys2Proof
end

