-- ==== Sys2Proof/WellFormed.lean ====
section
/-! DEFINITION. Which operations may stand where. Every operand has its width in its type, so a term is ill-formed only
by where it is presented: at `CMD` only the four commands are legal (`30_encoding.md` R79). -/

namespace Sys2Proof

/-- The four operations the host may issue at `CMD` (R72, R79). -/
def Instr.isCommand : Instr → Bool
  | .new | .write _ | .read _ | .writeRead _ => true
  | .start | .stop | .writeBit _ | .readBit | .writeByte _ | .readByte _ | .recover
  | .pull _ | .release _ | .waitClockReleased | .readDataIdle => false

/-- The eleven operations that only other operations call (R73, R79). -/
def Instr.isInternal (i : Instr) : Bool := !i.isCommand

/-- The two places an operation's word can stand: the command register, or a frame of the control stack (R70). -/
inductive WordPlace where
  | cmd
  | frame
  deriving DecidableEq, Repr

/-- An operation is well formed at `CMD` when it is a command (R79); a frame may name any of the fifteen (R70). -/
def Instr.wellFormedAt : WordPlace → Instr → Bool
  | .cmd, i => i.isCommand
  | .frame, _ => true

end Sys2Proof
end

