-- ==== Sys2Proof/Decode.lean ====
section
/-! DEFINITION. The codes of lines and directions, the decoder of command and frame words, total and rejecting by name,
and the encoder, from `30_encoding.md` R70 to R75, R79, R84. -/

namespace Sys2Proof

/-- Why a word is no operation (R79, R74). -/
inductive DecodeError where
  /-- `op` = 0 is reserved. -/
  | reservedOp
  /-- A bit that the format fixes at 0 is set. -/
  | nonzeroBits
  /-- NEW with `addr7` not 0. -/
  | newAddress
  deriving DecidableEq, Repr

/-- Bits 31 down to `n` of a word are all 0. -/
def zeroFrom (n : Nat) (w : Word) : Bool := w >>> n == 0

/-- Line codes: SCL = 0, SDA = 1 (R84). -/
def Line.ofBit (b : Bit) : Line := if b = 0 then .scl else .sda

/-- Line codes: SCL = 0, SDA = 1 (R84). -/
def Line.toBit : Line → Bit
  | .scl => 0
  | .sda => 1

/-- Direction codes: Input = 0, Output = 1 (R84). -/
def Dir.ofBit (b : Bit) : Dir := if b = 0 then .input else .output

/-- Direction codes: Input = 0, Output = 1 (R84). -/
def Dir.toBit : Dir → Bit
  | .input => 0
  | .output => 1

/-- The four-bit operation code `op` (R70, R73). -/
def opField (w : Word) : BitVec 4 := w.extractLsb' 0 4

/-- `addr7`, bits 10:4 of format H (R71, R75): the `ADDR_W` bits from bit 4. -/
def addrField (w : Word) : Addr := w.extractLsb' 4 Config.addrW

/-- Bit 4 of formats L and B (R74). -/
def bitField (w : Word) : Bit := w.extractLsb' 4 1

/-- `byte`, bits 11:4 of format Y (R74). -/
def byteField (w : Word) : Byte := w.extractLsb' 4 8

/-- `i`, if every bit of `w` from bit `n` up is 0. -/
def ifZeroFrom (n : Nat) (w : Word) (i : Instr) : Except DecodeError Instr :=
  if zeroFrom n w then .ok i else .error .nonzeroBits

/-- The operation a word names, at `CMD` or as a frame word (R70 to R74, R79). -/
def decode (w : Word) : Except DecodeError Instr :=
  match (opField w).toNat with
  | 1 => if zeroFrom 11 w then (if addrField w = 0 then .ok .new else .error .newAddress) else .error .nonzeroBits
  | 2 => ifZeroFrom 11 w (.write (addrField w))
  | 3 => ifZeroFrom 11 w (.read (addrField w))
  | 4 => ifZeroFrom 11 w (.writeRead (addrField w))
  | 5 => ifZeroFrom 4 w .start
  | 6 => ifZeroFrom 4 w .stop
  | 7 => ifZeroFrom 5 w (.writeBit (bitField w))
  | 8 => ifZeroFrom 4 w .readBit
  | 9 => ifZeroFrom 12 w (.writeByte (byteField w))
  | 10 => ifZeroFrom 5 w (.readByte (bitField w))
  | 11 => ifZeroFrom 4 w .recover
  | 12 => ifZeroFrom 5 w (.pull (Line.ofBit (bitField w)))
  | 13 => ifZeroFrom 5 w (.release (Line.ofBit (bitField w)))
  | 14 => ifZeroFrom 4 w .waitClockReleased
  | 15 => ifZeroFrom 4 w .readDataIdle
  | _ => .error .reservedOp

/-- The command a word written to `CMD` names, if it is legal there (R79). -/
def decodeCommand (w : Word) : Option Instr :=
  match decode w with
  | .ok i => if i.isCommand then some i else none
  | .error _ => none

/-- The operation code of each operation (R73). -/
def Instr.opcode : Instr → BitVec 4
  | .new => 1
  | .write _ => 2
  | .read _ => 3
  | .writeRead _ => 4
  | .start => 5
  | .stop => 6
  | .writeBit _ => 7
  | .readBit => 8
  | .writeByte _ => 9
  | .readByte _ => 10
  | .recover => 11
  | .pull _ => 12
  | .release _ => 13
  | .waitClockReleased => 14
  | .readDataIdle => 15

/-- The word of an operation: `op` in bits 3:0, the operand from bit 4, every other bit 0 (R71, R74). -/
def encode (i : Instr) : Word :=
  match i with
  | .write adr | .read adr | .writeRead adr => (0#21 ++ adr ++ i.opcode : BitVec 32)
  | .writeBit b | .readByte b => (0#27 ++ b ++ i.opcode : BitVec 32)
  | .writeByte x => (0#20 ++ x ++ i.opcode : BitVec 32)
  | .pull l | .release l => (0#27 ++ l.toBit ++ i.opcode : BitVec 32)
  | .new | .start | .stop | .readBit | .recover | .waitClockReleased | .readDataIdle => (0#28 ++ i.opcode : BitVec 32)

/-- A row of the opcode table: a word is the row's when its bits under `mask` are `pattern`. -/
structure TableRow where
  pattern : Word
  mask : Word
  deriving DecidableEq, Repr

/-- The row of the opcode table for each operation (`opcode_table.json`, columns match and mask). -/
def Instr.tableRow : Instr → TableRow
  | .new => ⟨0x00000001, 0xFFFFFFFF⟩
  | .write _ => ⟨0x00000002, 0xFFFFF80F⟩
  | .read _ => ⟨0x00000003, 0xFFFFF80F⟩
  | .writeRead _ => ⟨0x00000004, 0xFFFFF80F⟩
  | .start => ⟨0x00000005, 0xFFFFFFFF⟩
  | .stop => ⟨0x00000006, 0xFFFFFFFF⟩
  | .writeBit _ => ⟨0x00000007, 0xFFFFFFEF⟩
  | .readBit => ⟨0x00000008, 0xFFFFFFFF⟩
  | .writeByte _ => ⟨0x00000009, 0xFFFFF00F⟩
  | .readByte _ => ⟨0x0000000A, 0xFFFFFFEF⟩
  | .recover => ⟨0x0000000B, 0xFFFFFFFF⟩
  | .pull _ => ⟨0x0000000C, 0xFFFFFFEF⟩
  | .release _ => ⟨0x0000000D, 0xFFFFFFEF⟩
  | .waitClockReleased => ⟨0x0000000E, 0xFFFFFFFF⟩
  | .readDataIdle => ⟨0x0000000F, 0xFFFFFFFF⟩

/-- The word matches the row. -/
def TableRow.accepts (r : TableRow) (w : Word) : Bool := w &&& r.mask == r.pattern

/-- The operation this decoder reads from a row's bits as the opcode table numbers them: one word of 32 bits, bit 0 the
least significant (R9, R70). -/
def decodeTableWord (nbits w : Nat) : Option Instr :=
  if nbits ≤ 32 ∧ w < 2 ^ nbits then
    match decode (BitVec.ofNat 32 w) with
    | .ok i => some i
    | .error _ => none
  else none

end Sys2Proof
end

