-- ==== Sys2Proof/Machine/State.lean ====
section
/-! DEFINITION. The state of the engine as `10_state.md` R20 lists it, the two sides of its ports as plain data (log 1,
log 3, log 16), the reasons a run of the model can stop, and the state after hardware reset (R33, R180). -/

namespace Sys2Proof.Machine

/-! ## Positions of the sequencer: the labels of each operation's text (R10, R27) -/

/-- The fifteen operations as names of frames (R27, R73). -/
inductive Op where
  | new | write | read | writeRead
  | start | stop | writeBit | readBit | writeByte | readByte | recover
  | pull | release | waitClockReleased | readDataIdle
  deriving DecidableEq, Repr

/-- Labels of NEW (R130). -/
inductive NewLabel where
  | n0 | n1 | n2 | n3 | n4
  deriving DecidableEq, Repr

/-- Labels of WRITE (R131) and of READ (R132). -/
inductive TransferLabel where
  | a0 | a1 | a2 | a3 | a4
  deriving DecidableEq, Repr

/-- Labels of WRITE_READ (R133). -/
inductive CombinedLabel where
  | a0 | a1 | a2 | a3 | a4 | a5 | a6 | a7
  deriving DecidableEq, Repr

/-- Labels of START (R100). -/
inductive StartLabel where
  | s0 | s1 | s2 | s3 | s4 | s5
  deriving DecidableEq, Repr

/-- Labels of STOP (R101). -/
inductive StopLabel where
  | e0 | e1 | e2 | e3
  deriving DecidableEq, Repr

/-- Labels of READ_BIT (R102). -/
inductive ReadBitLabel where
  | b0 | b1 | b2 | b3 | b4 | b5
  deriving DecidableEq, Repr

/-- Labels of WRITE_BIT (R103). -/
inductive WriteBitLabel where
  | c0 | c1 | c2 | c3 | c4
  deriving DecidableEq, Repr

/-- Labels of READ_BYTE (R110). -/
inductive ReadByteLabel where
  | y0 | y1 | y2 | y3
  deriving DecidableEq, Repr

/-- Labels of WRITE_BYTE (R111). -/
inductive WriteByteLabel where
  | x0 | x1 | x2
  deriving DecidableEq, Repr

/-- Labels of RECOVER (R120). -/
inductive RecoverLabel where
  | v0 | v1 | v2 | v3 | v4 | v5 | v6 | v7 | v8 | v9 | v10 | v11
  deriving DecidableEq, Repr

/-- Labels of PULL (R90). -/
inductive PullLabel where
  | p0 | p1 | p2 | p3
  deriving DecidableEq, Repr

/-- Labels of RELEASE (R91). -/
inductive ReleaseLabel where
  | l0 | l1 | l2 | l3
  deriving DecidableEq, Repr

/-- Labels of WAIT_CLOCK_RELEASED (R92). -/
inductive WaitLabel where
  | w0 | w1 | w2 | w3 | w4 | w5
  deriving DecidableEq, Repr

/-- Labels of READ_DATA_IDLE (R93). -/
inductive IdleLabel where
  | i0 | i1 | i2 | i3
  deriving DecidableEq, Repr

/-- A position of the small-step machine: an operation and a label of its text (R10, R27). -/
inductive Pos where
  | new (l : NewLabel)
  | write (l : TransferLabel)
  | read (l : TransferLabel)
  | writeRead (l : CombinedLabel)
  | start (l : StartLabel)
  | stop (l : StopLabel)
  | writeBit (l : WriteBitLabel)
  | readBit (l : ReadBitLabel)
  | writeByte (l : WriteByteLabel)
  | readByte (l : ReadByteLabel)
  | recover (l : RecoverLabel)
  | pull (l : PullLabel)
  | release (l : ReleaseLabel)
  | waitClockReleased (l : WaitLabel)
  | readDataIdle (l : IdleLabel)
  deriving DecidableEq, Repr

/-- A frame of the control stack (R27). `returned` is the value a call made at this label has handed back, before the
statement at the label has been completed with it (log 4); `none` while the statement has not called or its call runs. -/
structure Frame where
  pos : Pos
  returned : Option Byte
  deriving DecidableEq, Repr

/-! ## Line shadow state, registers of the operations -/

/-- `drv[L]`: what the engine last commanded of a line (R24). -/
inductive Drv where
  /-- Not exported. -/
  | unclaimed
  /-- Exported; direction and level not established by the engine. -/
  | unknown
  /-- Direction Input. -/
  | released
  /-- Direction Output, no `SetVal(L, 0)` since. -/
  | outUnset
  /-- Direction Output driving logic 0. -/
  | pulled
  deriving DecidableEq, Repr

/-- The operation-local registers, one per row of R25. `none` is the spec's "no value" (R33): not written since its
operation began, or dead after the operation's return (R25; log 6). -/
structure Locals where
  /-- PULL.L -/
  pullL : Option Line
  /-- RELEASE.L -/
  releaseL : Option Line
  /-- RELEASE.v -/
  releaseV : Option Bit
  /-- WAIT_CLOCK_RELEASED.v -/
  waitV : Option Bit
  /-- READ_DATA_IDLE.v -/
  idleV : Option Bit
  /-- START.d -/
  startD : Option Bit
  /-- STOP.d -/
  stopD : Option Bit
  /-- WRITE_BIT.bit -/
  writeBitBit : Option Bit
  /-- READ_BIT.b -/
  readBitB : Option Bit
  /-- WRITE_BYTE.byte -/
  writeByteByte : Option Byte
  /-- WRITE_BYTE.i -/
  writeByteI : Option (BitVec 3)
  /-- WRITE_BYTE.ack -/
  writeByteAck : Option Bit
  /-- READ_BYTE.send_ack -/
  readByteSendAck : Option Bit
  /-- READ_BYTE.v -/
  readByteV : Option Byte
  /-- READ_BYTE.i -/
  readByteI : Option (BitVec 3)
  /-- RECOVER.burst -/
  recoverBurst : Option Addr
  /-- RECOVER.pulse -/
  recoverPulse : Option (BitVec 4)
  /-- RECOVER.d -/
  recoverD : Option Bit
  /-- WRITE, READ, WRITE_READ: idx -/
  idx : Option Nat
  /-- WRITE, READ, WRITE_READ: x -/
  x : Option Byte
  /-- WRITE, READ, WRITE_READ: a, never read (R134) -/
  a : Option Bit
  deriving DecidableEq, Repr

/-- No operation-local register holds a value (R33). -/
def Locals.dead : Locals where
  pullL := .none
  releaseL := .none
  releaseV := .none
  waitV := .none
  idleV := .none
  startD := .none
  stopD := .none
  writeBitBit := .none
  readBitB := .none
  writeByteByte := .none
  writeByteI := .none
  writeByteAck := .none
  readByteSendAck := .none
  readByteV := .none
  readByteI := .none
  recoverBurst := .none
  recoverPulse := .none
  recoverD := .none
  idx := .none
  x := .none
  a := .none

/-! ## The ports: events, host accesses, responses -/

/-- The answer to `Export`, `SetDir` and `SetVal` (R8). -/
inductive Ack where
  | ok
  | err (k : PErr)
  deriving DecidableEq, Repr

/-- An event with its answer (R8, R12). -/
inductive Event where
  /-- `Export(L)` -/
  | claim (L : Line) (ack : Ack)
  /-- `SetDir(L, d)` -/
  | setDir (L : Line) (d : Dir) (ack : Ack)
  /-- `SetVal(L, v)` -/
  | setVal (L : Line) (v : Bit) (ack : Ack)
  /-- `GetVal(L)` -/
  | getVal (L : Line) (answer : PinAnswer)
  /-- `Delay(us)` -/
  | delay (us : Nat)
  deriving DecidableEq, Repr

/-- The host interface registers CR0 to CR7 (R22). -/
inductive Reg where
  | cmd | status | result | errKind | freq | halfUs | wlen | rlen
  deriving DecidableEq, Repr

/-- What the host may attempt at the interface (R22, R52, R72), and hardware reset (R181). -/
inductive HostAction where
  | writeReg (r : Reg) (w : Word)
  | readReg (r : Reg)
  | writeBuf (b : Buf) (i : Nat) (v : Byte)
  | readBuf (b : Buf) (i : Nat)
  | hardwareReset
  deriving DecidableEq, Repr

/-- When the host's next access lands (log 3). -/
inductive Turn where
  /-- The host waits until the engine is idle, as the blocking call does (R72, R190). -/
  | whenIdle
  /-- The host does not wait: the access lands after `n` further steps, busy or not. -/
  | afterSteps (n : Nat)
  deriving DecidableEq, Repr

/-- One access of the host still to come. -/
structure Request where
  turn : Turn
  action : HostAction
  deriving DecidableEq, Repr

/-- The reasons of a refused command or access (R164, R165). -/
inductive RefuseReason where
  | busy | illegal | unconfigured | alreadyConfigured | length | access
  deriving DecidableEq, Repr

/-- What the host is told: the end of a command (R72), a refusal (R164, R165), or the result of an access. -/
inductive Response where
  | ok
  | pinFault (k : PErr)
  | divFault
  | refused (reason : RefuseReason)
  /-- A register or buffer write took place. -/
  | written
  | word (w : Word)
  | errKind (k : PErr)
  | byte (b : Byte)
  deriving DecidableEq, Repr

/-- A byte buffer: the bytes that differ from what an unlisted index reads as, indices strictly rising (log 9). -/
abbrev Memory := List Host.Cell

/-! ## The state -/

/-- The state of the engine (R20) and the model's own fields for its ports. -/
structure State where
  /-- CR4 FREQ (R21). -/
  freq : Freq
  /-- CR5 HALF_US (R21). -/
  halfUs : Word
  /-- CR0 CMD: the last accepted command word (R22; log 7). -/
  cmd : Word
  /-- CR1 STATUS (R23). -/
  status : Word
  /-- CR2 RESULT (R23). -/
  result : Word
  /-- CR3 ERRKIND (R23). -/
  errKind : PErr
  /-- CR6 WLEN (R22). -/
  wlen : Word
  /-- CR7 RLEN (R22). -/
  rlen : Word
  /-- WBUF (R52). -/
  wbuf : Memory
  /-- RBUF (R52). -/
  rbuf : Memory
  /-- drv[SCL] (R24). -/
  drvScl : Drv
  /-- drv[SDA] (R24). -/
  drvSda : Drv
  /-- The latched address (R26). -/
  adr : Option Addr
  /-- The latched WLEN (R26). -/
  wl : Option Nat
  /-- The latched RLEN (R26). -/
  rl : Option Nat
  /-- The operation-local registers (R25). -/
  locals : Locals
  /-- The control stack, top frame first (R27). -/
  pc : List Frame
  /-- Model's own: the events of the running or last accepted command, newest first (R12; log 16). -/
  trace : List Event
  /-- Model's own: the responses given so far, newest first (log 16). -/
  responses : List Response
  /-- Model's own: the scripted answers of the pin environment (R58; log 1). -/
  answers : List PinAnswer
  /-- Model's own: the accesses of the host still to come (log 3). -/
  requests : List Request
  /-- Model's own: the number of free values taken (log 2). -/
  freeIdx : Nat
  deriving DecidableEq, Repr

/-- The two faults of the engine (R150): what ends a running command. Not a stop of the model (R160). -/
inductive Cause where
  | pinFault (k : PErr)
  | divFault
  deriving DecidableEq, Repr

/-- The faults that stop a run of the model; neither can occur from reset under the rules. -/
inductive Fault where
  /-- An operation-local register or latched operand was read while it holds "no value" (R33). Raised by the fetch and by
  every statement that reads one. V10 names it a fault of the model; it is none of the engine's two faults (R150), which
  are responses. Safe: R25 says that a model "should fault rather than supply a value". -/
  | unwrittenLocal
  /-- The engine would access a buffer at an index at or above `BUF_MAX`, which does not exist (R53). Raised by the
  data loops of WRITE, READ and WRITE_READ. Safe. -/
  | bufferRange
  deriving DecidableEq, Repr

/-- The refusals that stop a run of the model. -/
inductive Refusal where
  /-- The operation has no meaning yet. Raised by `exec`'s refused arms only. Safe. -/
  | notModelled (mnemonic : String)
  /-- A hardware reset after the initial state (R181, V14). Raised by the host port. Safe: the spec asks for it. -/
  | midLifeReset
  deriving DecidableEq, Repr

/-- The outcome of one step. -/
abbrev Out := Host.Outcome State Fault Refusal

/-- The state after hardware reset (R33, R180). -/
def State.reset : State where
  freq := 0
  halfUs := 0
  cmd := 0
  status := 0
  result := 0
  errKind := Config.errKindAtReset
  wlen := 0
  rlen := 0
  wbuf := []
  rbuf := []
  drvScl := .unclaimed
  drvSda := .unclaimed
  adr := none
  wl := none
  rl := none
  locals := Locals.dead
  pc := []
  trace := []
  responses := []
  answers := []
  requests := []
  freeIdx := 0

end Sys2Proof.Machine
end

