-- ==== Sys2Proof/Machine/Flags.lean ====
section
/-! DEFINITION. The fields of STATUS and RESULT and the codes of refusals (`10_state.md` R23, `60_exceptions.md` R153,
R164, R165). The engine has no other flags (R29). -/

namespace Sys2Proof.Machine

/-- STATUS with CONFIGURED in bit 0, BUSY in bit 1 and bits 31:2 zero (R23). -/
def statusWord (configured busy : Bool) : Word :=
  (0#30 ++ BitVec.ofBool busy ++ BitVec.ofBool configured : BitVec 32)

/-- `STATUS[0]`, CONFIGURED (R23). -/
def State.configured (s : State) : Bool := s.status.getLsbD 0

/-- `STATUS[1]`, BUSY (R23). -/
def State.busy (s : State) : Bool := s.status.getLsbD 1

/-- `STATUS.BUSY <- b`. -/
def State.setBusy (b : Bool) (s : State) : State := { s with status := statusWord s.configured b }

/-- `STATUS.CONFIGURED <- b`. -/
def State.setConfigured (b : Bool) (s : State) : State := { s with status := statusWord b s.busy }

/-- Outcome code OK (R153). -/
def resultOk : Word := 1

/-- Outcome code PIN_FAULT (R153). -/
def resultPinFault : Word := 2

/-- Outcome code DIV_FAULT (R153). -/
def resultDivFault : Word := 3

/-- The outcome code a fault records (R153). -/
def Cause.code : Cause → Word
  | .pinFault _ => resultPinFault
  | .divFault => resultDivFault

/-- The response that reports a fault (R160). -/
def Cause.response : Cause → Response
  | .pinFault k => .pinFault k
  | .divFault => .divFault

/-- What a fault leaves in ERRKIND: the kind of a PinFault, unchanged by a DivFault (R151, R152). -/
def Cause.errKind (old : PErr) : Cause → PErr
  | .pinFault k => k
  | .divFault => old

/-- The codes of the refusal reasons (R164, R165). -/
def RefuseReason.code : RefuseReason → Nat
  | .busy => 1
  | .illegal => 2
  | .unconfigured => 3
  | .alreadyConfigured => 4
  | .length => 5
  | .access => 6

/-- The defined bits of STATUS and RESULT: bits 31:2 read as 0 (R23). -/
def fieldMask : Word := 3

/-- What the host reads from STATUS (R23). -/
def State.statusRead (s : State) : Word := s.status &&& fieldMask

/-- What the host reads from RESULT (R23). -/
def State.resultRead (s : State) : Word := s.result &&& fieldMask

end Sys2Proof.Machine
end

