-- ==== Sys2Proof/Machine/Operands.lean ====
section
/-! DEFINITION. Operands: which operation a frame belongs to, where an operation begins, the registers its operands are
held in, and the values assembled from fields (`30_encoding.md` R75, R76, R83, `10_state.md` R25 to R27). -/

namespace Sys2Proof.Machine

/-- The operation a position belongs to (R27). -/
def Pos.op : Pos → Op
  | .new _ => .new
  | .write _ => .write
  | .read _ => .read
  | .writeRead _ => .writeRead
  | .start _ => .start
  | .stop _ => .stop
  | .writeBit _ => .writeBit
  | .readBit _ => .readBit
  | .writeByte _ => .writeByte
  | .readByte _ => .readByte
  | .recover _ => .recover
  | .pull _ => .pull
  | .release _ => .release
  | .waitClockReleased _ => .waitClockReleased
  | .readDataIdle _ => .readDataIdle

/-- The name of an operation, without its operands. -/
def opOf : Instr → Op
  | .new => .new
  | .write _ => .write
  | .read _ => .read
  | .writeRead _ => .writeRead
  | .start => .start
  | .stop => .stop
  | .writeBit _ => .writeBit
  | .readBit => .readBit
  | .writeByte _ => .writeByte
  | .readByte _ => .readByte
  | .recover => .recover
  | .pull _ => .pull
  | .release _ => .release
  | .waitClockReleased => .waitClockReleased
  | .readDataIdle => .readDataIdle

/-- The first label of an operation (R27). -/
def entryOf : Instr → Pos
  | .new => .new .n0
  | .write _ => .write .a0
  | .read _ => .read .a0
  | .writeRead _ => .writeRead .a0
  | .start => .start .s0
  | .stop => .stop .e0
  | .writeBit _ => .writeBit .c0
  | .readBit => .readBit .b0
  | .writeByte _ => .writeByte .x0
  | .readByte _ => .readByte .y0
  | .recover => .recover .v0
  | .pull _ => .pull .p0
  | .release _ => .release .l0
  | .waitClockReleased => .waitClockReleased .w0
  | .readDataIdle => .readDataIdle .i0

/-- The operand registers a call writes (R10, R25); a call of WRITE_BYTE also enters its loop, so `i` is 7 (log 5). -/
def Locals.latch (i : Instr) (r : Locals) : Locals :=
  match i with
  | .writeBit b => { r with writeBitBit := some b }
  | .writeByte v => { r with writeByteByte := some v, writeByteI := some 7 }
  | .readByte b => { r with readByteSendAck := some b }
  | .pull l => { r with pullL := some l }
  | .release l => { r with releaseL := some l }
  | .new | .write _ | .read _ | .writeRead _ | .start | .stop | .readBit | .recover
  | .waitClockReleased | .readDataIdle => r

/-- The registers of an operation are dead when it returns or is replaced (R25; log 6). -/
def Locals.drop (o : Op) (r : Locals) : Locals :=
  match o with
  | .new => r
  | .write | .read | .writeRead => { r with idx := .none, x := .none, a := .none }
  | .start => { r with startD := .none }
  | .stop => { r with stopD := .none }
  | .writeBit => { r with writeBitBit := .none }
  | .readBit => { r with readBitB := .none }
  | .writeByte => { r with writeByteByte := .none, writeByteI := .none, writeByteAck := .none }
  | .readByte => { r with readByteSendAck := .none, readByteV := .none, readByteI := .none }
  | .recover => { r with recoverBurst := .none, recoverPulse := .none, recoverD := .none }
  | .pull => { r with pullL := .none }
  | .release => { r with releaseL := .none, releaseV := .none }
  | .waitClockReleased => { r with waitV := .none }
  | .readDataIdle => { r with idleV := .none }

/-- The operation, with its operands, that the sequencer is in at a position: the operands come from the registers the
call or the acceptance wrote them to (R25, R26). `none` when an operand register holds no value. -/
def State.operationAt (s : State) : Pos → Option Instr
  | .new _ => some .new
  | .write _ => s.adr.map .write
  | .read _ => s.adr.map .read
  | .writeRead _ => s.adr.map .writeRead
  | .start _ => some .start
  | .stop _ => some .stop
  | .writeBit _ => s.locals.writeBitBit.map .writeBit
  | .readBit _ => some .readBit
  | .writeByte _ => s.locals.writeByteByte.map .writeByte
  | .readByte _ => s.locals.readByteSendAck.map .readByte
  | .recover _ => some .recover
  | .pull _ => s.locals.pullL.map .pull
  | .release _ => s.locals.releaseL.map .release
  | .waitClockReleased _ => some .waitClockReleased
  | .readDataIdle _ => some .readDataIdle

/-- The address byte: the address in bits 7:1, the read/write bit in bit 0 (R76). -/
def abyte (adr : Addr) (rw : Bit) : Byte := adr ++ rw

/-- The read/write bit of a write (R84). -/
def rwWrite : Bit := 0

/-- The read/write bit of a read (R84). -/
def rwRead : Bit := 1

/-- `byte[i]` (R9). -/
def bitAt (byte : Byte) (i : BitVec 3) : Bit := byte.extractLsb' i.toNat 1

/-- `(v << 1) | b` on eight bits (R83 c). -/
def shiftIn (v : Byte) (b : Bit) : Byte := (v <<< 1) ||| b.setWidth 8

/-- A returned one-bit value as the call's caller sees it. -/
def asBit (v : Byte) : Bit := v.setWidth 1

/-- A one-bit value as a call hands it back. -/
def ofBit (b : Bit) : Byte := b.setWidth 8

/-- What an operation that returns nothing hands back; no caller reads it. -/
def noValue : Byte := 0

/-- The ninth bit READ_BYTE sends: ACK (0) if `send_ack` is 1, NACK (1) if it is 0 (R110). -/
def ninthBit (sendAck : Bit) : Bit := if sendAck = 1 then 0 else 1

/-- `send_ack` for byte `idx` of `rl`: 0 on the last byte only (R132). -/
def sendAckFor (idx rl : Nat) : Bit := if idx + 1 = rl then 0 else 1

/-- `HALF_NUM div FREQ`, truncating (R83 a). R9 calls a division by 0 undefined: the quotient is then a free value
(DESIGN CHOICE, log 25), which only N3 of NEW with `FREQ` = 0 takes, a state the zero test of N0 keeps out (R130). -/
def halfPeriod (freq : Freq) : Word :=
  if freq = 0 then Config.halfNumDivZero else BitVec.ofNat 32 (Config.halfNum / freq.toNat)

end Sys2Proof.Machine
end

