-- ==== Sys2Proof/Machine/Ops.lean ====
section
/-! DEFINITION. The named operations the meanings are written with: buffer bytes, the pin and delay primitives
(`00_scope.md` R11), the control stack (R10, R27), the end of a command by return (R137) and by a fault (R160), and the
acceptance of a command (R72, R164). -/

namespace Sys2Proof.Machine

/-! ## Buffers -/

/-- What an index of a buffer that the memory does not list reads as: the free byte of hardware reset (R33; log 9). -/
def unlisted (b : Buf) (i : Nat) : Byte := Config.bufByteAtReset b i

/-- The canonical form of a buffer: indices strictly rising and below `BUF_MAX`, no byte equal to the unlisted one. -/
abbrev Memory.wf (b : Buf) (m : Memory) : Prop :=
  m.Pairwise (fun c d => c.1 < d.1) ∧ ∀ c ∈ m, c.1 < Config.bufMax ∧ c.2 ≠ unlisted b c.1

/-- The byte listed at an index. -/
def Memory.listed : Memory → Nat → Option Byte
  | [], _ => none
  | (j, v) :: m, i => if j = i then some v else Memory.listed m i

/-- `MemRead` of one byte (R10, R53). -/
def Memory.read (b : Buf) (m : Memory) (i : Nat) : Byte := (m.listed i).getD (unlisted b i)

/-- The memory without an entry at an index. -/
def Memory.erase (m : Memory) (i : Nat) : Memory := m.filter fun c => c.1 ≠ i

/-- The memory with an entry at an index, in order. -/
def Memory.insert : Memory → Nat → Byte → Memory
  | [], i, v => [(i, v)]
  | (j, u) :: m, i, v =>
    if i < j then (i, v) :: (j, u) :: m
    else if i = j then (i, v) :: m
    else (j, u) :: Memory.insert m i v

/-- `MemWrite` of one byte (R10, R53), keeping the canonical form. -/
def Memory.write (b : Buf) (m : Memory) (i : Nat) (v : Byte) : Memory :=
  if v = unlisted b i then m.erase i else m.insert i v

/-! ## Registers of the state -/

/-- The line shadow state of a line (R24). -/
def State.drv (s : State) : Line → Drv
  | .scl => s.drvScl
  | .sda => s.drvSda

/-- `drv[L] <- d`. -/
def State.setDrv (L : Line) (d : Drv) (s : State) : State :=
  { s with
    drvScl := match L with
      | .scl => d
      | .sda => s.drvScl
    drvSda := match L with
      | .scl => s.drvSda
      | .sda => d }

/-- Write the operation-local registers. -/
def State.setLocals (r : Locals) (s : State) : State := { s with locals := r }

/-- The value of an operation-local register or latched operand. One that holds "no value" (R33) is not read: R25 says
that such a read "cannot occur under the rules" and that a model that finds one "should fault rather than supply a
value", and V10 gives it the treatment `fault` "of the model". -/
def need {α : Type} (v : Option α) (k : α → Out) : Out :=
  match v with
  | some a => k a
  | none => .fault .unwrittenLocal

/-! ## The ports -/

/-- Append an event to the trace. -/
def State.record (e : Event) (s : State) : State := { s with trace := e :: s.trace }

/-- Give the host a response. -/
def State.respond (r : Response) (s : State) : State := { s with responses := r :: s.responses }

/-- The pin environment's answer to the event being issued (R58): the next scripted one, or a free one (log 1). -/
def State.nextAnswer (s : State) : PinAnswer :=
  match s.answers with
  | a :: _ => a
  | [] => Config.freeAnswer s.freeIdx

/-- The state after an answer was taken. -/
def State.dropAnswer (s : State) : State :=
  { s with
    answers := s.answers.tail
    freeIdx := match s.answers with
      | _ :: _ => s.freeIdx
      | [] => s.freeIdx + 1 }

/-- What `Export`, `SetDir` and `SetVal` make of an answer. -/
def ackOf : PinAnswer → Ack
  | .ok _ => .ok
  | .err k => .err k

/-! ## Faults and the ends of a command -/

/-- Command operands and operation-local registers are dead, the control stack is empty, the engine is not busy (R137,
R160, R161). -/
def State.toIdle (s : State) : State :=
  { s.setBusy false with pc := [], locals := Locals.dead, adr := none, wl := none, rl := none }

/-- `raise F`: the one way a fault is taken, whatever the depth of the control stack (R160). There is no handler and no
return from a fault (R162). -/
def State.raise (c : Cause) (s : State) : State :=
  { s.toIdle with result := c.code, errKind := c.errKind s.errKind, responses := c.response :: s.responses }

/-- The normal end of a command (R137). -/
def State.endCommand (s : State) : State :=
  { s.toIdle with result := resultOk, responses := .ok :: s.responses }

/-! ## Pin and delay primitives (R11); `k` is what the statement does next -/

/-- `PinExport(L)`. -/
def State.pinExport (L : Line) (k : State → State) (s : State) : State :=
  let t := s.dropAnswer.record (.claim L (ackOf s.nextAnswer))
  match s.nextAnswer with
  | .ok _ => k (t.setDrv L .unknown)
  | .err e => t.raise (.pinFault e)

/-- `drv[L]` after a successful `SetDir(L, d)` (R11). -/
def Dir.drv : Dir → Drv
  | .input => .released
  | .output => .outUnset

/-- `PinSetDir(L, d)`. -/
def State.pinSetDir (L : Line) (d : Dir) (k : State → State) (s : State) : State :=
  let t := s.dropAnswer.record (.setDir L d (ackOf s.nextAnswer))
  match s.nextAnswer with
  | .ok _ => k (t.setDrv L (Dir.drv d))
  | .err e => (t.setDrv L .unknown).raise (.pinFault e)

/-- `PinSetVal(L, 0)`; the engine sets no other value (R8). -/
def State.pinSetVal (L : Line) (k : State → State) (s : State) : State :=
  let t := s.dropAnswer.record (.setVal L 0 (ackOf s.nextAnswer))
  match s.nextAnswer with
  | .ok _ => k (t.setDrv L .pulled)
  | .err e => (t.setDrv L .unknown).raise (.pinFault e)

/-- `PinGetVal(L)`. -/
def State.pinGetVal (L : Line) (k : Bit → State → State) (s : State) : State :=
  let t := s.dropAnswer.record (.getVal L s.nextAnswer)
  match s.nextAnswer with
  | .ok v => k v t
  | .err e => t.raise (.pinFault e)

/-- `Delay(us)`: completes, never fails (R8, R57). -/
def State.delay (us : Nat) (s : State) : State := s.record (.delay us)

/-- `Delay(HALF_US)`, issued also when `HALF_US` is 0 (R57). -/
def State.delayHalf (s : State) : State := s.delay s.halfUs.toNat

/-! ## The control stack (R10, R27) -/

/-- `goto`: the top frame moves to another label. -/
def State.goto (p : Pos) (s : State) : State := { s with pc := ⟨p, none⟩ :: s.pc.tail }

/-- `call OP(args)`: a frame is pushed and the operands are written. -/
def State.call (i : Instr) (s : State) : State :=
  { s with pc := ⟨entryOf i, none⟩ :: s.pc, locals := s.locals.latch i }

/-- `tailcall OP(args)`: the current frame is replaced; its registers are dead. -/
def State.tailcall (i : Instr) (s : State) : State :=
  match s.pc with
  | [] => s.call i
  | f :: rest => { s with pc := ⟨entryOf i, none⟩ :: rest, locals := (s.locals.drop f.pos.op).latch i }

/-- `return v`: the frame is popped and its registers are dead; its caller receives the value, and the return of the
bottom frame ends the command (R137). -/
def State.ret (v : Byte) (s : State) : State :=
  match s.pc with
  | [] => s
  | [_] => s.endCommand
  | f :: g :: rest => { s with pc := { g with returned := some v } :: rest, locals := s.locals.drop f.pos.op }

/-- A statement that is a call: it is begun by pushing the callee and completed with the value the callee handed back
(R136: a label is left only when the operation it calls has returned; log 4). -/
def State.callStmt (returned : Option Byte) (i : Instr) (k : Byte → State → Out) (s : State) : Out :=
  match returned with
  | none => .next (s.call i)
  | some v => k v s

/-! ## Issue of a command (R72, R164) -/

/-- The address operand of a command (R71). -/
def addressOf : Instr → Option Addr
  | .write adr | .read adr | .writeRead adr => some adr
  | .new | .start | .stop | .writeBit _ | .readBit | .writeByte _ | .readByte _ | .recover
  | .pull _ | .release _ | .waitClockReleased | .readDataIdle => none

/-- Which lengths a command uses: of WBUF, of RBUF (R164, order 4). -/
def usesLengths : Instr → Bool × Bool
  | .write _ => (true, false)
  | .read _ => (false, true)
  | .writeRead _ => (true, true)
  | .new | .start | .stop | .writeBit _ | .readBit | .writeByte _ | .readByte _ | .recover
  | .pull _ | .release _ | .waitClockReleased | .readDataIdle => (false, false)

/-- The first reason that refuses a legal command word, in the order of R164. -/
def State.refusal (i : Instr) (s : State) : Option RefuseReason :=
  if s.busy then some .busy
  else if i = .new then (if s.configured then some .alreadyConfigured else none)
  else if !s.configured then some .unconfigured
  else if ((usesLengths i).1 && decide (s.wlen.toNat > Config.bufMax)) ||
      ((usesLengths i).2 && decide (s.rlen.toNat > Config.bufMax)) then some .length
  else none

/-- Acceptance (R72): BUSY is set, the operands are latched (R26; NEW has none), the command's frame is pushed, and the
trace of the command begins (R12). -/
def State.accept (i : Instr) (s : State) : State :=
  let t := { s.setBusy true with cmd := encode i, pc := [⟨entryOf i, none⟩], trace := [] }
  if (addressOf i).isSome then
    { t with adr := addressOf i, wl := some s.wlen.toNat, rl := some s.rlen.toNat }
  else t

/-- A host write of a command's word to `CMD`: refused with a reason, changing nothing, or accepted (R164). -/
def State.issue (i : Instr) (s : State) : State :=
  match s.refusal i with
  | some r => s.respond (.refused r)
  | none => s.accept i

end Sys2Proof.Machine
end

