-- ==== Sys2Proof/Machine/BitEngine.lean ====
section
/-! DEFINITION. The Bit-Level Engine: START, STOP, READ_BIT, WRITE_BIT (`41_bit_engine.md` R100 to R103). One labelled
statement a step; when the frame on top belongs to another operation, the operation is called (log 18). -/

namespace Sys2Proof.Machine

/-- START (R100). -/
def execStart (s : State) : Out :=
  match s.pc with
  | ⟨.start l, r⟩ :: _ =>
    match l with
    | .s0 => s.callStmt r .readDataIdle fun v t =>
        .next ((t.setLocals { t.locals with startD := some (asBit v) }).goto (.start .s1))
    | .s1 => need s.locals.startD fun d =>
        if d = 0 then s.callStmt r .recover fun _ t => .next (t.goto (.start .s2))
        else .next (s.goto (.start .s2))
    | .s2 => s.callStmt r .waitClockReleased fun _ t => .next (t.goto (.start .s3))
    | .s3 => s.callStmt r (.pull .sda) fun _ t => .next (t.goto (.start .s4))
    | .s4 => s.callStmt r (.pull .scl) fun _ t => .next (t.goto (.start .s5))
    | .s5 => .next (s.ret noValue)
  | _ => .next (s.call .start)

/-- STOP (R101). -/
def execStop (s : State) : Out :=
  match s.pc with
  | ⟨.stop l, r⟩ :: _ =>
    match l with
    | .e0 => s.callStmt r .waitClockReleased fun _ t => .next (t.goto (.stop .e1))
    | .e1 => s.callStmt r (.release .sda) fun v t =>
        .next ((t.setLocals { t.locals with stopD := some (asBit v) }).goto (.stop .e2))
    | .e2 => need s.locals.stopD fun d =>
        .next (if d = 0 then s.tailcall .recover else s.goto (.stop .e3))
    | .e3 => .next (s.ret noValue)
  | _ => .next (s.call .stop)

/-- READ_BIT (R102). B2 samples through READ_DATA_IDLE, or by a bare `GetVal(SDA)` where the switch of decision D10 is
off (V16). -/
def execReadBit (s : State) : Out :=
  match s.pc with
  | ⟨.readBit l, r⟩ :: _ =>
    match l with
    | .b0 => s.callStmt r (.release .sda) fun _ t => .next (t.goto (.readBit .b1))
    | .b1 => s.callStmt r .waitClockReleased fun _ t => .next (t.goto (.readBit .b2))
    | .b2 =>
      if Config.sampleViaLineController then
        s.callStmt r .readDataIdle fun v t =>
          .next ((t.setLocals { t.locals with readBitB := some (asBit v) }).goto (.readBit .b3))
      else
        .next (s.pinGetVal .sda fun v t =>
          (t.setLocals { t.locals with readBitB := some v }).goto (.readBit .b3))
    | .b3 => s.callStmt r (.pull .scl) fun _ t => .next (t.goto (.readBit .b4))
    | .b4 => s.callStmt r (.pull .sda) fun _ t => .next (t.goto (.readBit .b5))
    | .b5 => need s.locals.readBitB fun b => .next (s.ret (ofBit b))
  | _ => .next (s.call .readBit)

/-- WRITE_BIT (R103): a 1 is sent by releasing the data line, a 0 by pulling it. -/
def execWriteBit (bit : Bit) (s : State) : Out :=
  match s.pc with
  | ⟨.writeBit l, r⟩ :: _ =>
    match l with
    | .c0 => s.callStmt r (if bit = 1 then .release .sda else .pull .sda) fun _ t => .next (t.goto (.writeBit .c1))
    | .c1 => s.callStmt r .waitClockReleased fun _ t => .next (t.goto (.writeBit .c2))
    | .c2 => s.callStmt r (.pull .scl) fun _ t => .next (t.goto (.writeBit .c3))
    | .c3 => s.callStmt r (.pull .sda) fun _ t => .next (t.goto (.writeBit .c4))
    | .c4 => .next (s.ret noValue)
  | _ => .next (s.call (.writeBit bit))

end Sys2Proof.Machine
end

