-- ==== Sys2Proof/Machine/ByteLayer.lean ====
section
/-! DEFINITION. The Byte-Level + ACK Layer: READ_BYTE, WRITE_BYTE (`42_byte_layer.md` R110, R111). One labelled statement
a step, the loop body of Y1 and of X0 once for each index; when the frame on top belongs to another operation, the
operation is called (log 18). -/

namespace Sys2Proof.Machine

/-- READ_BYTE (R110). -/
def execReadByte (sendAck : Bit) (s : State) : Out :=
  match s.pc with
  | ⟨.readByte l, r⟩ :: _ =>
    match l with
    | .y0 => .next ((s.setLocals { s.locals with readByteV := some 0, readByteI := some 7 }).goto (.readByte .y1))
    | .y1 => s.callStmt r .readBit fun b t =>
        need t.locals.readByteV fun v => need t.locals.readByteI fun i =>
          let u := t.setLocals { t.locals with readByteV := some (shiftIn v (asBit b)) }
          if i = 0 then .next (u.goto (.readByte .y2))
          else .next ((u.setLocals { u.locals with readByteI := some (i - 1) }).goto (.readByte .y1))
    | .y2 => s.callStmt r (.writeBit (ninthBit sendAck)) fun _ t => .next (t.goto (.readByte .y3))
    | .y3 => need s.locals.readByteV fun v => .next (s.ret v)
  | _ => .next (s.call (.readByte sendAck))

/-- WRITE_BYTE (R111): the acknowledge bit is sampled and returned, never enforced. -/
def execWriteByte (byte : Byte) (s : State) : Out :=
  match s.pc with
  | ⟨.writeByte l, r⟩ :: _ =>
    match l with
    | .x0 => need s.locals.writeByteI fun i =>
        s.callStmt r (.writeBit (bitAt byte i)) fun _ t =>
          if i = 0 then .next (t.goto (.writeByte .x1))
          else .next ((t.setLocals { t.locals with writeByteI := some (i - 1) }).goto (.writeByte .x0))
    | .x1 => s.callStmt r .readBit fun v t =>
        .next ((t.setLocals { t.locals with writeByteAck := some (asBit v) }).goto (.writeByte .x2))
    | .x2 => need s.locals.writeByteAck fun a => .next (s.ret (ofBit a))
  | _ => .next (s.call (.writeByte byte))

end Sys2Proof.Machine
end

