-- ==== Sys2Proof/Machine/LineController.lean ====
section
/-! DEFINITION. The Line Controller: PULL, RELEASE, WAIT_CLOCK_RELEASED, READ_DATA_IDLE (`40_line_controller.md` R90 to
R93). Each meaning runs one labelled statement of the frame on top of the control stack; when the frame on top belongs to
another operation, the operation is called (log 18). -/

namespace Sys2Proof.Machine

/-- PULL (R90). -/
def execPull (L : Line) (s : State) : Out :=
  match s.pc with
  | ⟨.pull l, _⟩ :: _ =>
    match l with
    | .p0 => .next (s.pinSetDir L .output (State.goto (.pull .p1)))
    | .p1 => .next (s.pinSetVal L (State.goto (.pull .p2)))
    | .p2 => .next (s.delayHalf.goto (.pull .p3))
    | .p3 => .next (s.ret noValue)
  | _ => .next (s.call (.pull L))

/-- RELEASE (R91). -/
def execRelease (L : Line) (s : State) : Out :=
  match s.pc with
  | ⟨.release l, _⟩ :: _ =>
    match l with
    | .l0 => .next (s.pinSetDir L .input (State.goto (.release .l1)))
    | .l1 => .next (s.delayHalf.goto (.release .l2))
    | .l2 => .next (s.pinGetVal L fun v t =>
        (t.setLocals { t.locals with releaseV := some v }).goto (.release .l3))
    | .l3 => need s.locals.releaseV fun v => .next (s.ret (ofBit v))
  | _ => .next (s.call (.release L))

/-- WAIT_CLOCK_RELEASED (R92): one `GetVal(SCL)`, one long wait if it answered 0. -/
def execWaitClockReleased (s : State) : Out :=
  match s.pc with
  | ⟨.waitClockReleased l, _⟩ :: _ =>
    match l with
    | .w0 => .next (s.pinSetDir .scl .input (State.goto (.waitClockReleased .w1)))
    | .w1 => .next (s.delayHalf.goto (.waitClockReleased .w2))
    | .w2 => .next (s.pinGetVal .scl fun v t =>
        (t.setLocals { t.locals with waitV := some v }).goto (.waitClockReleased .w3))
    | .w3 => need s.locals.waitV fun v =>
        .next ((if v = 0 then s.delay Config.tStretchUs else s).goto (.waitClockReleased .w4))
    | .w4 => .next (s.delayHalf.goto (.waitClockReleased .w5))
    | .w5 => .next (s.ret noValue)
  | _ => .next (s.call .waitClockReleased)

/-- READ_DATA_IDLE (R93). -/
def execReadDataIdle (s : State) : Out :=
  match s.pc with
  | ⟨.readDataIdle l, _⟩ :: _ =>
    match l with
    | .i0 => .next (s.pinSetDir .sda .input (State.goto (.readDataIdle .i1)))
    | .i1 => .next (s.delayHalf.goto (.readDataIdle .i2))
    | .i2 => .next (s.pinGetVal .sda fun v t =>
        (t.setLocals { t.locals with idleV := some v }).goto (.readDataIdle .i3))
    | .i3 => need s.locals.idleV fun v => .next (s.ret (ofBit v))
  | _ => .next (s.call .readDataIdle)

end Sys2Proof.Machine
end

