-- ==== Sys2Proof/Machine/Orchestrator.lean ====
section
/-! DEFINITION. Construction and the transaction commands: NEW, WRITE, READ, WRITE_READ (`44_orchestrator.md` R130 to
R133). One labelled statement a step, the loop bodies once for each index; when the frame on top belongs to another
operation, the command is issued (R72, R164; log 18). -/

namespace Sys2Proof.Machine

/-- NEW (R130). -/
def execNew (s : State) : Out :=
  match s.pc with
  | ⟨.new l, _⟩ :: _ =>
    match l with
    | .n0 => .next (if s.freq = 0 then s.raise .divFault else s.goto (.new .n1))
    | .n1 => .next (s.pinExport .scl (State.goto (.new .n2)))
    | .n2 => .next (s.pinExport .sda (State.goto (.new .n3)))
    | .n3 => .next ({ s.setConfigured true with halfUs := halfPeriod s.freq }.goto (.new .n4))
    | .n4 => .next (s.ret noValue)
  | _ => .next (s.issue .new)

/-- A call of WRITE_BYTE whose acknowledge bit goes to `a`, which nothing reads (R134); then the loop over the buffer at
`next` begins with `idx` = 0 (log 5), or, where no loop follows, nothing reads `idx`. -/
def State.sendAddress (r : Option Byte) (adr : Addr) (rw : Bit) (next : Pos) (s : State) : Out :=
  s.callStmt r (.writeByte (abyte adr rw)) fun v t =>
    .next ((t.setLocals { t.locals with a := some (asBit v), idx := some 0 }).goto next)

/-- `for idx from 0 to wl - 1: x <- MemRead(WBUF + idx, 1); a <- call WRITE_BYTE(x)` at label `here` (R131, R133). -/
def State.sendLoop (r : Option Byte) (here next : Pos) (s : State) : Out :=
  need s.locals.idx fun idx =>
    match r with
    | none => need s.wl fun wl =>
        if idx < wl then
          if idx < Config.bufMax then
            .next ((s.setLocals { s.locals with x := some (Memory.read .wbuf s.wbuf idx) }).call
              (.writeByte (Memory.read .wbuf s.wbuf idx)))
          else .fault .bufferRange
        else .next (s.goto next)
    | some v => .next ((s.setLocals { s.locals with a := some (asBit v), idx := some (idx + 1) }).goto here)

/-- `for idx from 0 to rl - 1: x <- call READ_BYTE(...); MemWrite(RBUF + idx, 1, x)` at label `here` (R132, R133): the
byte is stored after its READ_BYTE has returned (R54). -/
def State.receiveLoop (r : Option Byte) (here next : Pos) (s : State) : Out :=
  need s.locals.idx fun idx =>
    match r with
    | none => need s.rl fun rl =>
        if idx < rl then .next (s.call (.readByte (sendAckFor idx rl)))
        else .next (s.goto next)
    | some v =>
        if idx < Config.bufMax then
          .next (({ s with rbuf := Memory.write .rbuf s.rbuf idx v }.setLocals
            { s.locals with x := some v, idx := some (idx + 1) }).goto here)
        else .fault .bufferRange

/-- WRITE (R131). -/
def execWrite (adr : Addr) (s : State) : Out :=
  match s.pc with
  | ⟨.write l, r⟩ :: _ =>
    match l with
    | .a0 => s.callStmt r .start fun _ t => .next (t.goto (.write .a1))
    | .a1 => s.sendAddress r adr rwWrite (.write .a2)
    | .a2 => s.sendLoop r (.write .a2) (.write .a3)
    | .a3 => s.callStmt r .stop fun _ t => .next (t.goto (.write .a4))
    | .a4 => .next (s.ret noValue)
  | _ => .next (s.issue (.write adr))

/-- READ (R132). -/
def execRead (adr : Addr) (s : State) : Out :=
  match s.pc with
  | ⟨.read l, r⟩ :: _ =>
    match l with
    | .a0 => s.callStmt r .start fun _ t => .next (t.goto (.read .a1))
    | .a1 => s.sendAddress r adr rwRead (.read .a2)
    | .a2 => s.receiveLoop r (.read .a2) (.read .a3)
    | .a3 => s.callStmt r .stop fun _ t => .next (t.goto (.read .a4))
    | .a4 => .next (s.ret noValue)
  | _ => .next (s.issue (.read adr))

/-- WRITE_READ (R133): A3 is the repeated start, the same operation START (R82). -/
def execWriteRead (adr : Addr) (s : State) : Out :=
  match s.pc with
  | ⟨.writeRead l, r⟩ :: _ =>
    match l with
    | .a0 => s.callStmt r .start fun _ t => .next (t.goto (.writeRead .a1))
    | .a1 => s.sendAddress r adr rwWrite (.writeRead .a2)
    | .a2 => s.sendLoop r (.writeRead .a2) (.writeRead .a3)
    | .a3 => s.callStmt r .start fun _ t => .next (t.goto (.writeRead .a4))
    | .a4 => s.sendAddress r adr rwRead (.writeRead .a5)
    | .a5 => s.receiveLoop r (.writeRead .a5) (.writeRead .a6)
    | .a6 => s.callStmt r .stop fun _ t => .next (t.goto (.writeRead .a7))
    | .a7 => .next (s.ret noValue)
  | _ => .next (s.issue (.writeRead adr))

end Sys2Proof.Machine
end

