-- ==== Sys2Proof/Machine/Recovery.lean ====
section
/-! DEFINITION. Bus Reset/Recovery: RECOVER (`43_recovery.md` R120). One labelled statement a step; when the frame on top
belongs to another operation, the operation is called (log 18). -/

namespace Sys2Proof.Machine

/-- The line V9 pulls: the clock first, unless the switch of decision D14 is off (R120 d, V16). -/
def firstPull : Line := if Config.recoverPullClockFirst then .scl else .sda

/-- The line V10 pulls. -/
def secondPull : Line := if Config.recoverPullClockFirst then .sda else .scl

/-- RECOVER (R120). An increment keeps the width of its counter (log 26). -/
def execRecover (s : State) : Out :=
  match s.pc with
  | ⟨.recover l, r⟩ :: _ =>
    match l with
    | .v0 => s.callStmt r (.release .sda) fun _ t => .next (t.goto (.recover .v1))
    | .v1 => .next ((s.setLocals { s.locals with recoverBurst := some 0 }).goto (.recover .v2))
    | .v2 => .next ((s.setLocals { s.locals with recoverPulse := some 0 }).goto (.recover .v3))
    | .v3 => s.callStmt r (.pull .scl) fun _ t => .next (t.goto (.recover .v4))
    | .v4 => s.callStmt r (.release .scl) fun _ t => .next (t.goto (.recover .v5))
    | .v5 => need s.locals.recoverPulse fun pulse =>
        let t := s.setLocals { s.locals with recoverPulse := some (pulse + 1) }
        .next (t.goto (.recover (if (pulse + 1).toNat < Config.pulsesPerBurst then .v3 else .v6)))
    | .v6 => .next ((s.delay Config.burstPauseUs).goto (.recover .v7))
    | .v7 => s.callStmt r .readDataIdle fun v t =>
        .next ((t.setLocals { t.locals with recoverD := some (asBit v) }).goto (.recover .v8))
    | .v8 => need s.locals.recoverBurst fun burst => need s.locals.recoverD fun d =>
        let t := s.setLocals { s.locals with recoverBurst := some (burst + 1) }
        .next (t.goto (.recover (if d = 0 ∧ (burst + 1).toNat < Config.maxBursts then .v2 else .v9)))
    | .v9 => s.callStmt r (.pull firstPull) fun _ t => .next (t.goto (.recover .v10))
    | .v10 => s.callStmt r (.pull secondPull) fun _ t => .next (t.goto (.recover .v11))
    | .v11 => .next (s.tailcall .stop)
  | _ => .next (s.call .recover)

end Sys2Proof.Machine
end

