-- ==== Sys2Proof/Machine/Dispatch.lean ====
section
/-! DEFINITION. The meaning of each operation, one arm per constructor of Instr. -/

namespace Sys2Proof.Machine

def exec (i : Instr) (s : State) : Host.Outcome State Fault Refusal :=
  match i with
  | .new => Sys2Proof.Machine.execNew s
  | .write adr => Sys2Proof.Machine.execWrite adr s
  | .read adr => Sys2Proof.Machine.execRead adr s
  | .writeRead adr => Sys2Proof.Machine.execWriteRead adr s
  | .start => Sys2Proof.Machine.execStart s
  | .stop => Sys2Proof.Machine.execStop s
  | .writeBit bit => Sys2Proof.Machine.execWriteBit bit s
  | .readBit => Sys2Proof.Machine.execReadBit s
  | .writeByte byte => Sys2Proof.Machine.execWriteByte byte s
  | .readByte sendAck => Sys2Proof.Machine.execReadByte sendAck s
  | .recover => Sys2Proof.Machine.execRecover s
  | .pull line => Sys2Proof.Machine.execPull line s
  | .release line => Sys2Proof.Machine.execRelease line s
  | .waitClockReleased => Sys2Proof.Machine.execWaitClockReleased s
  | .readDataIdle => Sys2Proof.Machine.execReadDataIdle s

end Sys2Proof.Machine
end

