-- ==== Sys2Proof/Machine/HostPort.lean ====
section
/-! DEFINITION. The host port: register and buffer accesses with their access rights, and the write to `CMD` that issues
a command (`10_state.md` R22, `20_memory.md` R52, `30_encoding.md` R72, R79, `60_exceptions.md` R164, R165). -/

namespace Sys2Proof.Machine

/-- The engine refuses and changes nothing (R164, R165); the machine goes on (log 14). -/
def State.refuse (r : RefuseReason) (s : State) : State := s.respond (.refused r)

/-- A host write of a word to `CMD` (R72, R164): BUSY is decided before the word is looked at. -/
def State.writeCmd (w : Word) (s : State) : Out :=
  if s.busy then .next (s.refuse .busy)
  else match decodeCommand w with
    | some i => exec i s
    | none => .next (s.refuse .illegal)

/-- A host write to a register (R22, R165). -/
def State.writeReg (r : Reg) (w : Word) (s : State) : Out :=
  match r with
  | .cmd => s.writeCmd w
  | .freq => .next (if s.configured || s.busy then s.refuse .access else { s with freq := w }.respond .written)
  | .wlen => .next (if s.busy then s.refuse .access else { s with wlen := w }.respond .written)
  | .rlen => .next (if s.busy then s.refuse .access else { s with rlen := w }.respond .written)
  | .status | .result | .errKind | .halfUs => .next (s.refuse .access)

/-- A host read of a register (R22, R23). A read of CMD returns a free value (V7), and so does a read of ERRKIND while
RESULT is not PIN_FAULT (V8; log 2, log 8). -/
def State.readReg (r : Reg) (s : State) : State :=
  match r with
  | .cmd => { s with freeIdx := s.freeIdx + 1 }.respond (.word (Config.freeCmdRead s.freeIdx))
  | .status => s.respond (.word s.statusRead)
  | .result => s.respond (.word s.resultRead)
  | .errKind =>
    if s.resultRead = resultPinFault then s.respond (.errKind s.errKind)
    else { s with freeIdx := s.freeIdx + 1 }.respond (.errKind (Config.freeErrKind s.freeIdx))
  | .freq => s.respond (.word s.freq)
  | .halfUs => s.respond (.word s.halfUs)
  | .wlen => s.respond (.word s.wlen)
  | .rlen => s.respond (.word s.rlen)

/-- The bytes of a buffer. -/
def State.buf (s : State) : Buf → Memory
  | .wbuf => s.wbuf
  | .rbuf => s.rbuf

/-- Put the bytes of a buffer. -/
def State.setBuf (b : Buf) (m : Memory) (s : State) : State :=
  match b with
  | .wbuf => { s with wbuf := m }
  | .rbuf => { s with rbuf := m }

/-- A host access to a buffer is refused while busy or at an index at or above `BUF_MAX` (R52, R165). -/
def State.bufRefused (i : Nat) (s : State) : Bool := s.busy || decide (Config.bufMax ≤ i)

/-- A host write of one buffer byte (R52). -/
def State.writeBuf (b : Buf) (i : Nat) (v : Byte) (s : State) : State :=
  if s.bufRefused i then s.refuse .access else (s.setBuf b (Memory.write b (s.buf b) i v)).respond .written

/-- A host read of one buffer byte (R52). -/
def State.readBuf (b : Buf) (i : Nat) (s : State) : State :=
  if s.bufRefused i then s.refuse .access else s.respond (.byte (Memory.read b (s.buf b) i))

/-- One access of the host. A hardware reset is admitted only as the initial state (R181; log 15). -/
def hostAccess (a : HostAction) (s : State) : Out :=
  match a with
  | .writeReg r w => s.writeReg r w
  | .readReg r => .next (s.readReg r)
  | .writeBuf b i v => .next (s.writeBuf b i v)
  | .readBuf b i => .next (s.readBuf b i)
  | .hardwareReset => .refused .midLifeReset

/-- The host's access that lands at this step, if any (log 3). -/
def State.due (s : State) : Option HostAction :=
  match s.requests with
  | [] => none
  | q :: _ =>
    match q.turn with
    | .whenIdle => if s.busy then none else some q.action
    | .afterSteps 0 => some q.action
    | .afterSteps (_ + 1) => none

/-- The accesses still to come after this one. -/
def State.popRequest (s : State) : State := { s with requests := s.requests.tail }

/-- The accesses still to come, the next one a step nearer. -/
def countDown : List Request → List Request
  | ⟨.afterSteps (n + 1), a⟩ :: qs => ⟨.afterSteps n, a⟩ :: qs
  | qs => qs

/-- One step of the engine brings the host's next access one step nearer (log 3). -/
def State.tick (s : State) : State := { s with requests := countDown s.requests }

/-- One step of the sequencer: idle while the control stack is empty (R27, R180), else one labelled statement of the
operation on top of it (R28). -/
def sequencerStep (s : State) : Out :=
  match s.pc with
  | [] => .next s
  | f :: _ => need (s.operationAt f.pos) fun i => exec i s

end Sys2Proof.Machine
end

