-- ==== Sys2Proof/Machine/Step.lean ====
section
/-! DEFINITION. The step of the machine, and the placing of one instruction where the step fetches it. -/

namespace Sys2Proof.Machine

/-- One step: the host's access if one lands now, else one step of the sequencer (R7, R28, R72; log 3, log 4). -/
def step (s : State) : Host.Outcome State Fault Refusal :=
  match s.due with
  | some a => hostAccess a s.popRequest
  | none => sequencerStep s.tick

/-- `s` with one instruction where the step fetches it (log 13): a command's word (and any word that names no operation)
stands as the host's next write to `CMD`, on an idle engine in the configuration the command needs to be accepted; an
internal operation, which the host cannot issue, stands as the frame on top of the control stack. -/
def State.withFetchWord (s : State) (nbits w : Nat) : State :=
  match decodeTableWord nbits w with
  | some i =>
    if i.isCommand then
      { (s.toIdle.setConfigured (i != .new)) with
        requests := ⟨.whenIdle, .writeReg .cmd (BitVec.ofNat 32 w)⟩ :: s.requests }
    else { (s.setBusy true).call i with requests := [] }
  | none =>
    { s.toIdle with requests := ⟨.whenIdle, .writeReg .cmd (BitVec.ofNat 32 w)⟩ :: s.requests }

end Sys2Proof.Machine
end

