-- ==== Sys2Proof/Safety.lean ====
section
/-! DEFINITION. The terms claims are stated in: quiet hosts and runs, traces as lists of events in issue order, start and
stop edges, and the invariants of the engine. Nothing here is used by the step. -/

namespace Sys2Proof.Machine

/-! ## Runs -/

/-- No access of the host lands at this step and none is counted down: the step is the sequencer's alone. -/
abbrev State.quiet (s : State) : Prop := s.due = none ∧ s.tick = s

/-- `n` steps of the machine, stopping at the first fault or refusal. -/
def run : Nat → State → Out
  | 0, s => .next s
  | n + 1, s =>
    match step s with
    | .next t => run n t
    | .fault r => .fault r
    | .refused r => .refused r

/-- `t` is reached from `s` by some number of steps, none of which stops. -/
def Runs (s t : State) : Prop := ∃ n, run n s = .next t

/-- A step's outcome with a change made to the next state. -/
def mapNext (f : State → State) : Out → Out
  | .next s => .next (f s)
  | .fault r => .fault r
  | .refused r => .refused r

/-- With the frame at `p` on top, the operation's statement leads to `t`. -/
abbrev Does (i : Instr) (s : State) (p : Pos) (returned : Option Byte) (rest : List Frame) (t : State) : Prop :=
  s.pc = ⟨p, returned⟩ :: rest → exec i s = .next t

/-- The statement at `p` calls an operation, and once the call has returned goes on to `next` with the registers `k`
makes of the value handed back. -/
abbrev CallsThen (i : Instr) (s : State) (p : Pos) (callee : Instr) (rest : List Frame) (next : Pos)
    (k : Byte → Locals) : Prop :=
  Does i s p none rest
    { s with pc := ⟨entryOf callee, none⟩ :: ⟨p, none⟩ :: rest, locals := s.locals.latch callee } ∧
  ∀ v, Does i s p (some v) rest { s with pc := ⟨next, none⟩ :: rest, locals := k v }

/-- What a PinFault leaves of a state (R151, R160): everything not named is unchanged. -/
def State.afterPinFault (k : PErr) (s : State) : State :=
  { s with
    pc := [], locals := Locals.dead, adr := none, wl := none, rl := none
    status := statusWord s.configured false, result := 2, errKind := k
    responses := .pinFault k :: s.responses }

/-- A pin event was issued and its answer taken. -/
def State.issued (e : Event) (s : State) : State := { s.dropAnswer with trace := e :: s.trace }

/-- The line operation's pin event `mk` on line `L` leads to `d` and to `next`, or to a PinFault with the line
`UNKNOWN` (R11). -/
abbrev DrivesThen (i : Instr) (s : State) (p : Pos) (r : Option Byte) (rest : List Frame) (L : Line) (mk : Ack → Event)
    (d : Drv) (next : Pos) : Prop :=
  (∀ v, s.nextAnswer = .ok v →
    Does i s p r rest { (s.issued (mk .ok)).setDrv L d with pc := ⟨next, none⟩ :: rest }) ∧
  (∀ k, s.nextAnswer = .err k →
    Does i s p r rest (((s.issued (mk (.err k))).setDrv L .unknown).afterPinFault k))

/-- The statement samples a line, puts the level in a register and goes on to `next`; on an error it ends the command,
the line's shadow state unchanged (R11). -/
abbrev SamplesThen (i : Instr) (s : State) (p : Pos) (r : Option Byte) (rest : List Frame) (L : Line)
    (k : Bit → Locals) (next : Pos) : Prop :=
  (∀ v, s.nextAnswer = .ok v →
    Does i s p r rest { s.issued (.getVal L (.ok v)) with pc := ⟨next, none⟩ :: rest, locals := k v }) ∧
  (∀ e, s.nextAnswer = .err e → Does i s p r rest ((s.issued (.getVal L (.err e))).afterPinFault e))

/-- The statement issues one delay and goes on to `next`. -/
abbrev DelaysThen (i : Instr) (s : State) (p : Pos) (r : Option Byte) (rest : List Frame) (us : Nat) (next : Pos) : Prop :=
  Does i s p r rest { s with trace := .delay us :: s.trace, pc := ⟨next, none⟩ :: rest }

/-- The data loop of a write phase at `here` (R131, R133): byte `idx` is read and sent while `idx` is below the latched
length, else the loop is left; after each byte `idx` grows by one. -/
abbrev SendsFrom (i : Instr) (s : State) (here next : Pos) (rest : List Frame) : Prop :=
  ∀ j n, s.locals.idx = some j → s.wl = some n → n ≤ Config.bufMax →
    (j < n → Does i s here none rest
      { s with
        pc := ⟨.writeByte .x0, none⟩ :: ⟨here, none⟩ :: rest
        locals := { s.locals with
          x := some (Memory.read .wbuf s.wbuf j)
          writeByteByte := some (Memory.read .wbuf s.wbuf j)
          writeByteI := some 7 } }) ∧
    (n ≤ j → Does i s here none rest { s with pc := ⟨next, none⟩ :: rest }) ∧
    (∀ v, Does i s here (some v) rest
      { s with
        pc := ⟨here, none⟩ :: rest
        locals := { s.locals with a := some (v.setWidth 1), idx := some (j + 1) } })

/-- The data loop of a read phase at `here` (R132, R133): READ_BYTE is called with `send_ack` 1 on every byte but the
last; the byte it returns is stored at `idx` and `idx` grows by one. -/
abbrev ReceivesFrom (i : Instr) (s : State) (here next : Pos) (rest : List Frame) : Prop :=
  ∀ j n, s.locals.idx = some j → s.rl = some n → n ≤ Config.bufMax →
    (j < n → Does i s here none rest
      { s with
        pc := ⟨.readByte .y0, none⟩ :: ⟨here, none⟩ :: rest
        locals := { s.locals with readByteSendAck := some (if j = n - 1 then 0 else 1) } }) ∧
    (n ≤ j → Does i s here none rest { s with pc := ⟨next, none⟩ :: rest }) ∧
    (j < n → ∀ v, Does i s here (some v) rest
      { s with
        pc := ⟨here, none⟩ :: rest
        rbuf := Memory.write .rbuf s.rbuf j v
        locals := { s.locals with x := some v, idx := some (j + 1) } })

/-- The address byte is sent at `p` with the read/write bit `rw`, its acknowledge bit goes to `a`, and `idx` is 0 at the
label that follows (R76, R131 to R134). -/
abbrev SendsAddress (i : Instr) (s : State) (p : Pos) (rest : List Frame) (adr : Addr) (rw : Bit) (next : Pos) : Prop :=
  CallsThen i s p (.writeByte (adr ++ rw)) rest next
    fun v => { s.locals with a := some (v.setWidth 1), idx := some 0 }

/-! ## The events of each operation, in issue order, with `h` the half-bit-period (R90 to R133) -/

/-- The answer an event records, if it is a pin event. The level of an `ok` that answers no `GetVal` is given as 0. -/
def Event.answerOf : Event → Option PinAnswer
  | .claim _ .ok | .setDir _ _ .ok | .setVal _ _ .ok => some (.ok 0)
  | .claim _ (.err k) | .setDir _ _ (.err k) | .setVal _ _ (.err k) => some (.err k)
  | .getVal _ a => some a
  | .delay _ => none

/-- The answers the pin environment gives in a list of events. -/
def answersFor (es : List Event) : List PinAnswer := es.filterMap Event.answerOf

/-- PULL (R90). -/
def pullEvents (h : Nat) (L : Line) : List Event := [.setDir L .output .ok, .setVal L 0 .ok, .delay h]

/-- RELEASE (R91) and, on the data line, READ_DATA_IDLE (R93), sampling `v`. -/
def sampleEvents (h : Nat) (L : Line) (v : Bit) : List Event := [.setDir L .input .ok, .delay h, .getVal L (.ok v)]

/-- WAIT_CLOCK_RELEASED (R92), the clock reading `c`. -/
def waitEvents (h : Nat) (c : Bit) : List Event :=
  sampleEvents h .scl c ++ (if c = 0 then [.delay Config.tStretchUs] else []) ++ [.delay h]

/-- START (R100) when the data line reads 1. -/
def startEvents (h : Nat) (c : Bit) : List Event :=
  sampleEvents h .sda 1 ++ waitEvents h c ++ pullEvents h .sda ++ pullEvents h .scl

/-- STOP (R101) when the data line reads 1. -/
def stopEvents (h : Nat) (c : Bit) : List Event := waitEvents h c ++ sampleEvents h .sda 1

/-- READ_BIT (R102): the discarded sample `u`, the clock `c`, the captured bit `b`. -/
def readBitEvents (h : Nat) (u c b : Bit) : List Event :=
  sampleEvents h .sda u ++ waitEvents h c ++ sampleEvents h .sda b ++ pullEvents h .scl ++ pullEvents h .sda

/-- WRITE_BIT (R103): the bit sent, the discarded sample `u` of a 1, the clock `c`. -/
def writeBitEvents (h : Nat) (bit u c : Bit) : List Event :=
  (if bit = 1 then sampleEvents h .sda u else pullEvents h .sda) ++ waitEvents h c ++ pullEvents h .scl ++
    pullEvents h .sda

/-- The levels the lines read while one byte unit passes (R77): at bit index `i` the discarded data sample and the clock;
at the ninth bit the discarded sample and the clock. -/
structure ByteLevels where
  data : Nat → Bit
  clock : Nat → Bit
  ninthData : Bit
  ninthClock : Bit

/-- Bit indices in wire order (R50). -/
def bitOrder : List Nat := [7, 6, 5, 4, 3, 2, 1, 0]

/-- WRITE_BYTE (R111), the peer's acknowledge bit being `ack`. -/
def writeByteEvents (h : Nat) (byte : Byte) (lv : ByteLevels) (ack : Bit) : List Event :=
  bitOrder.flatMap (fun i => writeBitEvents h (bitAt byte (BitVec.ofNat 3 i)) (lv.data i) (lv.clock i)) ++
    readBitEvents h lv.ninthData lv.ninthClock ack

/-- READ_BYTE (R110), the bits sampled being those of `v`. -/
def readByteEvents (h : Nat) (sendAck : Bit) (v : Byte) (lv : ByteLevels) : List Event :=
  bitOrder.flatMap (fun i => readBitEvents h (lv.data i) (lv.clock i) (bitAt v (BitVec.ofNat 3 i))) ++
    writeBitEvents h (if sendAck = 1 then 0 else 1) lv.ninthData lv.ninthClock

/-- The data bytes of a write phase (R131, A2): byte `k` with levels `lv k` and acknowledge bit `ack k`. -/
def sendEvents (h : Nat) (bytes : List Byte) (lv : Nat → ByteLevels) (ack : Nat → Bit) : List Event :=
  bytes.zipIdx.flatMap fun p => writeByteEvents h p.1 (lv p.2) (ack p.2)

/-- The data bytes of a read phase (R132, A2): ACK after every byte but the last, NACK after the last. -/
def receiveEvents (h : Nat) (bytes : List Byte) (lv : Nat → ByteLevels) : List Event :=
  bytes.zipIdx.flatMap fun p => readByteEvents h (if p.2 + 1 = bytes.length then 0 else 1) p.1 (lv p.2)

/-- What a peer and the wires do in one transaction without recovery: the clock at each start and at the stop, the levels
during the address bytes and the data bytes, and the acknowledge bits. -/
structure BusLevels where
  start1 : Bit
  address1 : ByteLevels
  addressAck1 : Bit
  sent : Nat → ByteLevels
  sentAck : Nat → Bit
  start2 : Bit
  address2 : ByteLevels
  addressAck2 : Bit
  received : Nat → ByteLevels
  stop : Bit

/-- WRITE (R131): S, address byte, data bytes, P (R78). -/
def writeEvents (h : Nat) (adr : Addr) (bytes : List Byte) (b : BusLevels) : List Event :=
  startEvents h b.start1 ++ writeByteEvents h (adr ++ (0 : Bit)) b.address1 b.addressAck1 ++
    sendEvents h bytes b.sent b.sentAck ++ stopEvents h b.stop

/-- READ (R132): S, address byte, received bytes, P (R78). -/
def readEvents (h : Nat) (adr : Addr) (bytes : List Byte) (b : BusLevels) : List Event :=
  startEvents h b.start1 ++ writeByteEvents h (adr ++ (1 : Bit)) b.address1 b.addressAck1 ++
    receiveEvents h bytes b.received ++ stopEvents h b.stop

/-- WRITE_READ (R133): S, address byte, data bytes, Sr, address byte, received bytes, P (R78). -/
def writeReadEvents (h : Nat) (adr : Addr) (out inn : List Byte) (b : BusLevels) : List Event :=
  startEvents h b.start1 ++ writeByteEvents h (adr ++ (0 : Bit)) b.address1 b.addressAck1 ++
    sendEvents h out b.sent b.sentAck ++ startEvents h b.start2 ++
    writeByteEvents h (adr ++ (1 : Bit)) b.address2 b.addressAck2 ++ receiveEvents h inn b.received ++
    stopEvents h b.stop

/-- One burst of RECOVER (R120, V2 to V8): the clock levels of its pulses, then the check reading `check`. -/
def burstEvents (h : Nat) (clock : Nat → Bit) (check : Bit) : List Event :=
  (List.range Config.pulsesPerBurst).flatMap (fun p => pullEvents h .scl ++ sampleEvents h .scl (clock p)) ++
    [.delay Config.burstPauseUs] ++ sampleEvents h .sda check

/-- RECOVER up to its V11 with `k` bursts (R120, R121): every check but the last reads 0, the last reads `last`. -/
def recoverEvents (h : Nat) (v0 : Bit) (clock : Nat → Nat → Bit) (k : Nat) (last : Bit) : List Event :=
  sampleEvents h .sda v0 ++
    (List.range k).flatMap (fun j => burstEvents h (clock j) (if j + 1 = k then last else 0)) ++
    pullEvents h .scl ++ pullEvents h .sda

/-! ## Start and stop edges (R13), read off a list of events in issue order -/

/-- What a successful event commands of the lines: the pair (drv[SCL], drv[SDA]) after it (R11). -/
def Event.lines (p : Drv × Drv) : Event → Drv × Drv
  | .claim .scl .ok => (.unknown, p.2)
  | .claim .sda .ok => (p.1, .unknown)
  | .setDir .scl .input .ok => (.released, p.2)
  | .setDir .scl .output .ok => (.outUnset, p.2)
  | .setDir .sda .input .ok => (p.1, .released)
  | .setDir .sda .output .ok => (p.1, .outUnset)
  | .setVal .scl _ .ok => (.pulled, p.2)
  | .setVal .sda _ .ok => (p.1, .pulled)
  | .setDir .scl _ (.err _) | .setVal .scl _ (.err _) => (.unknown, p.2)
  | .setDir .sda _ (.err _) | .setVal .sda _ (.err _) => (p.1, .unknown)
  | .claim _ (.err _) | .getVal _ _ | .delay _ => p

/-- A start edge: a successful `SetDir(SDA, Output)` with both lines `RELEASED` (R13). -/
def Event.isStartEdge (p : Drv × Drv) (e : Event) : Bool :=
  e = .setDir .sda .output .ok && p.1 = .released && p.2 = .released

/-- A stop edge: a successful `SetDir(SDA, Input)` with the data line driven and the clock `RELEASED` (R13). -/
def Event.isStopEdge (p : Drv × Drv) (e : Event) : Bool :=
  e = .setDir .sda .input .ok && p.1 = .released && (p.2 = .pulled || p.2 = .outUnset)

/-- The number of start edges and of stop edges in a list of events that begins with the lines at `p`. -/
def edgeCounts (p : Drv × Drv) : List Event → Nat × Nat
  | [] => (0, 0)
  | e :: es =>
    let r := edgeCounts (e.lines p) es
    (r.1 + (e.isStartEdge p).toNat, r.2 + (e.isStopEdge p).toNat)

/-- The number of `Delay` events of a duration. -/
def delayCount (us : Nat) (es : List Event) : Nat := es.countP fun e => e = .delay us

/-! ## The control stack (R27) -/

/-- The operations that may be running below a call statement, tail calls included (R73, R101, R120). -/
def Pos.calls : Pos → Op → Bool
  | .write .a0, .start | .write .a1, .writeByte | .write .a2, .writeByte => true
  | .write .a3, .stop | .write .a3, .recover => true
  | .read .a0, .start | .read .a1, .writeByte | .read .a2, .readByte => true
  | .read .a3, .stop | .read .a3, .recover => true
  | .writeRead .a0, .start | .writeRead .a1, .writeByte | .writeRead .a2, .writeByte => true
  | .writeRead .a3, .start | .writeRead .a4, .writeByte | .writeRead .a5, .readByte => true
  | .writeRead .a6, .stop | .writeRead .a6, .recover => true
  | .start .s0, .readDataIdle | .start .s1, .recover | .start .s1, .stop => true
  | .start .s2, .waitClockReleased | .start .s3, .pull | .start .s4, .pull => true
  | .stop .e0, .waitClockReleased | .stop .e1, .release => true
  | .readBit .b0, .release | .readBit .b1, .waitClockReleased | .readBit .b2, .readDataIdle => true
  | .readBit .b3, .pull | .readBit .b4, .pull => true
  | .writeBit .c0, .release | .writeBit .c0, .pull | .writeBit .c1, .waitClockReleased => true
  | .writeBit .c2, .pull | .writeBit .c3, .pull => true
  | .readByte .y1, .readBit | .readByte .y2, .writeBit => true
  | .writeByte .x0, .writeBit | .writeByte .x1, .readBit => true
  | .recover .v0, .release | .recover .v3, .pull | .recover .v4, .release | .recover .v7, .readDataIdle => true
  | .recover .v9, .pull | .recover .v10, .pull => true
  | _, _ => false

/-- A command (R72). -/
def Op.isCommand : Op → Bool
  | .new | .write | .read | .writeRead => true
  | _ => false

/-- The stack is a chain of outstanding calls on top of one command (R27). -/
def stackWf : List Frame → Bool
  | [] => true
  | [f] => f.pos.op.isCommand
  | f :: g :: rest => g.returned == none && g.pos.calls f.pos.op && stackWf (g :: rest)

/-! ## Registers that hold a value where they are read (R25) -/

/-- The registers the operation of a frame holds a value in when it stands at the frame's position. -/
def State.liveAt (s : State) : Pos → Bool
  | .new _ => true
  | .write l => s.adr.isSome && s.wl.isSome && s.rl.isSome && (l != .a2 || s.locals.idx.isSome)
  | .read l => s.adr.isSome && s.wl.isSome && s.rl.isSome && (l != .a2 || s.locals.idx.isSome)
  | .writeRead l =>
    s.adr.isSome && s.wl.isSome && s.rl.isSome && ((l != .a2 && l != .a5) || s.locals.idx.isSome)
  | .start l => l != .s1 || s.locals.startD.isSome
  | .stop l => l != .e2 || s.locals.stopD.isSome
  | .writeBit _ => s.locals.writeBitBit.isSome
  | .readBit l => (l != .b3 && l != .b4 && l != .b5) || s.locals.readBitB.isSome
  | .writeByte l =>
    s.locals.writeByteByte.isSome && (l != .x0 || s.locals.writeByteI.isSome) &&
      (l != .x2 || s.locals.writeByteAck.isSome)
  | .readByte l =>
    s.locals.readByteSendAck.isSome && (l == .y0 || s.locals.readByteV.isSome) &&
      (l != .y1 || s.locals.readByteI.isSome)
  | .recover l =>
    ((l == .v0 || l == .v1) || s.locals.recoverBurst.isSome) &&
      ((l != .v3 && l != .v4 && l != .v5) || s.locals.recoverPulse.isSome) &&
      (l != .v8 || s.locals.recoverD.isSome)
  | .pull _ => s.locals.pullL.isSome
  | .release l => s.locals.releaseL.isSome && (l != .l3 || s.locals.releaseV.isSome)
  | .waitClockReleased l => l != .w3 || s.locals.waitV.isSome
  | .readDataIdle l => l != .i3 || s.locals.idleV.isSome

/-- The latched lengths a command uses are at most `BUF_MAX` (R53). -/
def State.lengthsOk (s : State) : Pos → Prop
  | .write _ => ∀ n, s.wl = some n → n ≤ Config.bufMax
  | .read _ => ∀ n, s.rl = some n → n ≤ Config.bufMax
  | .writeRead _ => (∀ n, s.wl = some n → n ≤ Config.bufMax) ∧ (∀ n, s.rl = some n → n ≤ Config.bufMax)
  | _ => True

/-- While a byte is being received, or has been, `idx` is below the latched length (R53, R54). -/
def State.receiving (s : State) : Pos → Prop
  | .read .a2 | .writeRead .a5 => ∀ i n, s.locals.idx = some i → s.rl = some n → i < n
  | _ => True

/-- Every frame's registers hold values and every index is in range. -/
def State.live (s : State) : Prop :=
  stackWf s.pc = true ∧ (∀ f ∈ s.pc, s.liveAt f.pos = true ∧ s.lengthsOk f.pos) ∧
    (∀ f ∈ s.pc.tail, s.receiving f.pos) ∧ (∀ f ∈ s.pc, f.returned ≠ none → s.receiving f.pos)

/-! ## Host-visible invariants -/

/-- `pc` is empty exactly when BUSY is 0 (R27). -/
def State.busyInv (s : State) : Prop := s.busy = true ↔ s.pc ≠ []

/-- Bits 31:2 of STATUS and RESULT are 0 (R23). -/
def State.reservedInv (s : State) : Prop := s.status.toNat < 4 ∧ s.result.toNat < 4

/-- While configured, the frequency is positive and HALF_US is `HALF_NUM div FREQ` (R21); NEW has passed its zero test
once it is beyond N0 (R130). -/
def State.configInv (s : State) : Prop :=
  s.busyInv ∧ (s.configured = true → s.freq ≠ 0 ∧ s.halfUs.toNat = Config.halfNum / s.freq.toNat) ∧
    (∀ f ∈ s.pc, f.pos = .new .n1 ∨ f.pos = .new .n2 ∨ f.pos = .new .n3 → s.freq ≠ 0)

/-- Both buffers are in canonical form (log 9). -/
def State.buffersInv (s : State) : Prop := Memory.wf .wbuf s.wbuf ∧ Memory.wf .rbuf s.rbuf

/-- Between commands no operation register and no latched operand holds a value (R33, R34). -/
def State.idleInv (s : State) : Prop :=
  s.pc = [] → s.locals = Locals.dead ∧ s.adr = none ∧ s.wl = none ∧ s.rl = none

/-! ## Line invariants -/

/-- A line is sampled, and given its value, only in the direction the primitive has set (R59): what the line operation on
top of the stack has made of its line. -/
def State.sampleInv (s : State) : Prop :=
  match s.pc with
  | ⟨.release l, _⟩ :: _ => l = .l1 ∨ l = .l2 → ∀ L, s.locals.releaseL = some L → s.drv L = .released
  | ⟨.waitClockReleased l, _⟩ :: _ => l = .w1 ∨ l = .w2 → s.drvScl = .released
  | ⟨.readDataIdle l, _⟩ :: _ => l = .i1 ∨ l = .i2 → s.drvSda = .released
  | ⟨.pull .p1, _⟩ :: _ => ∀ L, s.locals.pullL = some L → s.drv L = .outUnset
  | _ => True

/-- Both lines pulled. -/
def bothPulled (p : Drv × Drv) : Bool := p = (.pulled, .pulled)

/-- Both lines released. -/
def bothReleased (p : Drv × Drv) : Bool := p = (.released, .released)

/-- The line states a transaction may begin in (R104, first START, no fault before): both `UNKNOWN` after NEW, both
`RELEASED` after a completed command. -/
def entryLines (p : Drv × Drv) : Bool := p = (.unknown, .unknown) || bothReleased p

/-- The data line released, the clock released, pulled or unknown. -/
def dataReleased (p : Drv × Drv) : Bool := p.2 = .released && (p.1 = .released || p.1 = .pulled || p.1 = .unknown)

/-- The clock at `c`, the data line released or pulled. -/
def dataEither (c : Drv) (p : Drv × Drv) : Bool := p.1 = c && (p.2 = .released || p.2 = .pulled)

/-- The line states at a position that has not called yet, in the flows of R104. -/
def Pos.linesAt (q : Pos) (p : Drv × Drv) : Bool :=
  match q with
  | .new _ => true
  | .write .a0 | .read .a0 | .writeRead .a0 => entryLines p
  | .write .a4 | .read .a4 | .writeRead .a7 => bothReleased p
  | .write _ | .read _ | .writeRead _ => bothPulled p
  | .start .s0 => entryLines p || bothPulled p
  | .start .s1 | .start .s2 => dataReleased p
  | .start .s3 => bothReleased p
  | .start .s4 => p = (.released, .pulled)
  | .start .s5 => bothPulled p
  | .stop .e0 => bothPulled p
  | .stop .e1 => p = (.released, .pulled)
  | .stop .e2 | .stop .e3 => bothReleased p
  | .readBit .b0 | .readBit .b5 => bothPulled p
  | .readBit .b1 | .readBit .b4 => p = (.pulled, .released)
  | .readBit .b2 | .readBit .b3 => bothReleased p
  | .writeBit .c0 | .writeBit .c4 => bothPulled p
  | .writeBit .c1 | .writeBit .c3 => dataEither .pulled p
  | .writeBit .c2 => dataEither .released p
  | .readByte _ | .writeByte _ => bothPulled p
  | .recover .v0 | .recover .v1 | .recover .v2 | .recover .v3 => dataReleased p
  | .recover .v4 | .recover .v10 => p = (.pulled, .released)
  | .recover .v11 => bothPulled p
  | .recover _ => bothReleased p
  | .pull _ | .release _ | .waitClockReleased _ | .readDataIdle _ => true

/-- The line states when the call of a position has returned: those at the position that follows. A position that calls
nothing has the states of `linesAt`. -/
def Pos.linesBack (q : Pos) (p : Drv × Drv) : Bool :=
  match q with
  | .write .a3 | .read .a3 | .writeRead .a6 => bothReleased p
  | .write .a4 | .read .a4 | .writeRead .a7 => bothReleased p
  | .write _ | .read _ | .writeRead _ => bothPulled p
  | .start .s0 => dataReleased p
  | .start .s1 | .start .s2 => bothReleased p
  | .start .s3 => p = (.released, .pulled)
  | .start _ => bothPulled p
  | .stop .e0 => p = (.released, .pulled)
  | .stop _ => bothReleased p
  | .readBit .b0 | .readBit .b3 => p = (.pulled, .released)
  | .readBit .b1 | .readBit .b2 => bothReleased p
  | .readBit _ => bothPulled p
  | .writeBit .c0 | .writeBit .c2 => dataEither .pulled p
  | .writeBit .c1 => dataEither .released p
  | .writeBit _ => bothPulled p
  | .readByte _ | .writeByte _ => bothPulled p
  | .recover .v0 | .recover .v1 | .recover .v2 => dataReleased p
  | .recover .v3 | .recover .v9 => p = (.pulled, .released)
  | .recover .v10 | .recover .v11 => bothPulled p
  | .recover _ => bothReleased p
  | .new _ | .pull _ | .release _ | .waitClockReleased _ | .readDataIdle _ => true

/-- The line the line operation called at a position works on. -/
def Pos.line : Pos → Line
  | .start .s4 | .start .s2 | .stop .e0 | .readBit .b1 | .readBit .b3 | .writeBit .c1 | .writeBit .c2
  | .recover .v3 | .recover .v4 | .recover .v9 => .scl
  | _ => .sda

/-- The pair (drv[SCL], drv[SDA]). -/
def State.lines (s : State) : Drv × Drv := (s.drvScl, s.drvSda)

/-- The pair with one line changed. -/
def withLine (L : Line) (d : Drv) (p : Drv × Drv) : Drv × Drv :=
  match L with
  | .scl => (d, p.2)
  | .sda => (p.1, d)

/-- The line states of a transaction that began in the entry states of R104: where the operation on top of the stack
stands, and, inside a line operation, what its caller requires. -/
def State.orderInv (s : State) : Prop :=
  stackWf s.pc = true ∧
  match s.pc with
  | ⟨.pull l, _⟩ :: g :: _ =>
    s.locals.pullL = some g.pos.line ∧
      match l with
      | .p0 => g.pos.linesAt s.lines = true
      | .p1 => s.drv g.pos.line = .outUnset ∧ g.pos.linesBack (withLine g.pos.line .pulled s.lines) = true
      | .p2 | .p3 => g.pos.linesBack s.lines = true
  | ⟨.release l, _⟩ :: g :: _ =>
    s.locals.releaseL = some g.pos.line ∧
      (if l = .l0 then g.pos.linesAt s.lines else g.pos.linesBack s.lines) = true
  | ⟨.waitClockReleased l, _⟩ :: g :: _ => (if l = .w0 then g.pos.linesAt s.lines else g.pos.linesBack s.lines) = true
  | ⟨.readDataIdle l, _⟩ :: g :: _ => (if l = .i0 then g.pos.linesAt s.lines else g.pos.linesBack s.lines) = true
  | f :: _ => (if f.returned = none then f.pos.linesAt s.lines else f.pos.linesBack s.lines) = true
  | [] => True

/-- The step changes drv[SDA] between `RELEASED` and not `RELEASED` while drv[SCL] is `RELEASED` (R105). -/
def dataEdge (s t : State) : Prop :=
  s.drvScl = .released ∧ ((s.drvSda = .released) ≠ (t.drvSda = .released))

/-- The top of the stack is the first statement of PULL(SDA) called at START's S3. -/
def atStartEdge (s : State) : Prop :=
  ∃ r g rest, s.pc = ⟨.pull .p0, r⟩ :: g :: rest ∧ g.pos = .start .s3

/-- The top of the stack is the first statement of RELEASE(SDA) called at STOP's E1. -/
def atStopEdge (s : State) : Prop :=
  ∃ r g rest, s.pc = ⟨.release .l0, r⟩ :: g :: rest ∧ g.pos = .stop .e1

/-! ## Registers that steer nothing -/

/-- The state without its line shadow state (R24). -/
def State.eraseDrv (s : State) : State := { s with drvScl := .unclaimed, drvSda := .unclaimed }

/-- The state without the acknowledge bit a command holds (R134). -/
def State.eraseAck (s : State) : State := { s with locals := { s.locals with a := none } }

/-! ## Whole calls -/

/-- The registers of every operation an operation calls hold no value, as they do whenever none of them runs (R25). -/
def calleesDead (o : Op) (r : Locals) : Prop :=
  match o with
  | .pull | .release | .waitClockReleased | .readDataIdle => True
  | .readByte | .writeByte =>
    r.pullL = none ∧ r.releaseL = none ∧ r.releaseV = none ∧ r.waitV = none ∧ r.idleV = none ∧
      r.writeBitBit = none ∧ r.readBitB = none
  | _ => r.pullL = none ∧ r.releaseL = none ∧ r.releaseV = none ∧ r.waitV = none ∧ r.idleV = none

/-- A call of `i`, on a machine the host leaves alone and with a pin environment that answers as the events `es` of the
half-bit-period record, issues exactly those events, leaves the lines as `p` says, and hands back `v` to its caller; the
operands are those a call of `i` writes, and nothing else changes. -/
def CallRuns (i : Instr) (es : Nat → List Event) (p : Drv × Drv → Drv × Drv) (v : Byte) : Prop :=
  ∀ (s : State) (g : Frame) (rest : List Frame) (as : List PinAnswer),
    s.quiet → s.pc = ⟨entryOf i, none⟩ :: g :: rest → s.locals.latch i = s.locals → calleesDead (opOf i) s.locals →
    s.answers = answersFor (es s.halfUs.toNat) ++ as →
    Runs s { s with
      answers := as, trace := (es s.halfUs.toNat).reverse ++ s.trace
      drvScl := (p s.lines).1, drvSda := (p s.lines).2
      pc := ⟨g.pos, some v⟩ :: rest, locals := s.locals.drop (opOf i) }

/-- The state a command ends in with OK (R137), after the events `es`, with the pin environment's further answers `as`
and the lines at `p`. -/
def State.endedOk (s : State) (es : List Event) (as : List PinAnswer) (p : Drv × Drv) : State :=
  { s with
    answers := as, trace := es.reverse ++ s.trace, drvScl := p.1, drvSda := p.2
    pc := [], locals := Locals.dead, adr := none, wl := none, rl := none
    result := 1, status := statusWord s.configured false, responses := .ok :: s.responses }

/-- No clock stretching in a byte unit: every sample of the clock reads 1. -/
def ByteLevels.clockHigh (l : ByteLevels) : Prop := (∀ i, l.clock i = 1) ∧ l.ninthClock = 1

/-- No clock stretching in a transaction. -/
def BusLevels.clockHigh (b : BusLevels) : Prop :=
  b.start1 = 1 ∧ b.start2 = 1 ∧ b.stop = 1 ∧ b.address1.clockHigh ∧ b.address2.clockHigh ∧
    (∀ k, (b.sent k).clockHigh) ∧ ∀ k, (b.received k).clockHigh

/-! ## Transactions without recovery -/

/-- A WRITE accepted on a machine the host leaves alone, the pin environment answering as the levels `b` say; `bytes` are
the bytes of WBUF it sends (R131). -/
structure WriteBegins (s : State) (adr : Addr) (bytes : List Byte) (b : BusLevels) : Prop where
  alone : s.quiet
  entry : s.pc = [⟨.write .a0, none⟩]
  address : s.adr = some adr
  toSend : s.wl = some bytes.length
  fits : bytes.length ≤ Config.bufMax
  fresh : s.locals = Locals.dead
  sent : bytes = (List.range bytes.length).map (Memory.read .wbuf s.wbuf)
  answered : ∃ as, s.answers = answersFor (writeEvents s.halfUs.toNat adr bytes b) ++ as

/-- A READ accepted likewise; `bytes` are the bytes the peer sends (R132). -/
structure ReadBegins (s : State) (adr : Addr) (bytes : List Byte) (b : BusLevels) : Prop where
  alone : s.quiet
  entry : s.pc = [⟨.read .a0, none⟩]
  address : s.adr = some adr
  toReceive : s.rl = some bytes.length
  fits : bytes.length ≤ Config.bufMax
  fresh : s.locals = Locals.dead
  answered : ∃ as, s.answers = answersFor (readEvents s.halfUs.toNat adr bytes b) ++ as

/-- A WRITE_READ accepted likewise (R133). -/
structure WriteReadBegins (s : State) (adr : Addr) (out inn : List Byte) (b : BusLevels) : Prop where
  alone : s.quiet
  entry : s.pc = [⟨.writeRead .a0, none⟩]
  address : s.adr = some adr
  toSend : s.wl = some out.length
  toReceive : s.rl = some inn.length
  outFits : out.length ≤ Config.bufMax
  innFits : inn.length ≤ Config.bufMax
  fresh : s.locals = Locals.dead
  sent : out = (List.range out.length).map (Memory.read .wbuf s.wbuf)
  answered : ∃ as, s.answers = answersFor (writeReadEvents s.halfUs.toNat adr out inn b) ++ as

/-- The command running in `s` ends with OK, and the events the steps up to its end appended to the trace, in issue
order, are as `P` says (R12, R137). -/
def EndsWith (s : State) (P : List Event → Prop) : Prop :=
  ∃ t es, Runs s t ∧ t.pc = [] ∧ t.responses = .ok :: s.responses ∧ t.trace = es.reverse ++ s.trace ∧ P es

/-- The next event is the sample STOP takes of the data line: RELEASE's L2, called at E1 (R101, R195). -/
def State.atStopSample (s : State) : Prop :=
  ∃ r r' rest, s.pc = ⟨.release .l2, r⟩ :: ⟨.stop .e1, r'⟩ :: rest

end Sys2Proof.Machine
end

