-- ==== Sys2Proof/Certificates/Slice0/Obligations.lean ====
section
/-! DEFINITION. The statements about the engine, from the numbered rules of `spec/`. -/

open Sys2Proof Sys2Proof.Machine

/-! ## Encoding -/

/-- R71, R74: the word of every operation, with every operand, decodes to it. -/
def Obligations.DecodeOfEncode : Prop := ∀ i : Instr, decode (encode i) = .ok i

/-- R71, R74: a word decodes to at most one operation, whose word it is. -/
def Obligations.EncodeOfDecode : Prop := ∀ (w : Word) (i : Instr), decode w = .ok i → encode i = w

/-- R73, R74 and the opcode table: a word decodes to some operation exactly when it matches a row of the table, and the
row it matches is that operation's. -/
def Obligations.DecoderAcceptsTheTable : Prop :=
  (∀ (w : Word) (i : Instr), decode w = .ok i → i.tableRow.accepts w = true) ∧
  (∀ (w : Word) (j : Instr), j.tableRow.accepts w = true → ∃ i, decode w = .ok i ∧ i.tableRow = j.tableRow)

/-- Vectors E1 to E7 and E14: words written out from the encoding. -/
def Obligations.WordsOfTheSpecDecode : Prop :=
  decode 0x00000001 = .ok .new ∧ decode 0x00000502 = .ok (.write 0x50) ∧ decode 0x00000503 = .ok (.read 0x50) ∧
  decode 0x00000504 = .ok (.writeRead 0x50) ∧ decode 0x00000002 = .ok (.write 0) ∧
  decode 0x000007F3 = .ok (.read 0x7F) ∧ decode 0x0000001C = .ok (.pull .sda) ∧
  decode 0x0000000D = .ok (.release .scl) ∧ decode 0x00000017 = .ok (.writeBit 1) ∧
  decode 0x0000001A = .ok (.readByte 1) ∧ decode 0x00000A09 = .ok (.writeByte 0xA0)

/-- R79: the illegal command words, each refused with reason ILLEGAL with no other effect; every other word is one of
the four commands. -/
def Obligations.IllegalCommandWords : Prop :=
  (∀ w : Word, decodeCommand w = none ↔
    (w.extractLsb' 0 4 = 0 ∨ 5 ≤ (w.extractLsb' 0 4).toNat ∨ w.extractLsb' 11 21 ≠ 0 ∨
      (w.extractLsb' 0 4 = 1 ∧ w.extractLsb' 4 7 ≠ 0))) ∧
  (∀ (w : Word) (s : State), s.busy = false → decodeCommand w = none →
    hostAccess (.writeReg .cmd w) s = .next { s with responses := .refused .illegal :: s.responses }) ∧
  (∀ (w : Word) (i : Instr), decodeCommand w = some i →
    i = .new ∨ (∃ adr, i = .write adr) ∨ (∃ adr, i = .read adr) ∨ ∃ adr, i = .writeRead adr)

/-! ## The host port -/

/-- R164: the codes of the refusal reasons; a write of a word to `CMD` is refused with the first reason that applies,
changing nothing but the response, and is otherwise accepted. -/
def Obligations.CommandRefusals : Prop :=
  (RefuseReason.busy.code = 1 ∧ RefuseReason.illegal.code = 2 ∧ RefuseReason.unconfigured.code = 3 ∧
    RefuseReason.alreadyConfigured.code = 4 ∧ RefuseReason.length.code = 5) ∧
  ∀ (s : State) (w : Word),
    (s.busy = true →
      hostAccess (.writeReg .cmd w) s = .next { s with responses := .refused .busy :: s.responses }) ∧
    (s.busy = false → decodeCommand w = none →
      hostAccess (.writeReg .cmd w) s = .next { s with responses := .refused .illegal :: s.responses }) ∧
    (s.busy = false → s.pc = [] → ∀ i, decodeCommand w = some i →
      (i = .new → s.configured = true →
        hostAccess (.writeReg .cmd w) s = .next { s with responses := .refused .alreadyConfigured :: s.responses }) ∧
      (i ≠ .new → s.configured = false →
        hostAccess (.writeReg .cmd w) s = .next { s with responses := .refused .unconfigured :: s.responses }) ∧
      (s.configured = true →
        (((∃ adr, i = .write adr) ∨ ∃ adr, i = .writeRead adr) ∧ Config.bufMax < s.wlen.toNat) ∨
          (((∃ adr, i = .read adr) ∨ ∃ adr, i = .writeRead adr) ∧ Config.bufMax < s.rlen.toNat) →
        hostAccess (.writeReg .cmd w) s = .next { s with responses := .refused .length :: s.responses }) ∧
      ((i = .new ∧ s.configured = false) ∨
        (i ≠ .new ∧ s.configured = true ∧
          (((∃ adr, i = .write adr) ∨ ∃ adr, i = .writeRead adr) → s.wlen.toNat ≤ Config.bufMax) ∧
          (((∃ adr, i = .read adr) ∨ ∃ adr, i = .writeRead adr) → s.rlen.toNat ≤ Config.bufMax)) →
        ∃ t, hostAccess (.writeReg .cmd w) s = .next t ∧ t.busy = true ∧ t.pc = [⟨entryOf i, none⟩] ∧
          t.responses = s.responses))

/-- R26, R72: acceptance of each command on an idle engine, and nothing else changes. -/
def Obligations.CommandAcceptance : Prop :=
  ∀ (s : State), s.busy = false → s.pc = [] →
    (s.configured = false →
      exec .new s = .next { s with
        status := 2, cmd := 1, pc := [⟨.new .n0, none⟩], trace := [] }) ∧
    (s.configured = true → ∀ adr : Addr,
      (s.wlen.toNat ≤ Config.bufMax →
        exec (.write adr) s = .next { s with
          status := 3, cmd := encode (.write adr), pc := [⟨.write .a0, none⟩], trace := [],
          adr := some adr, wl := some s.wlen.toNat, rl := some s.rlen.toNat }) ∧
      (s.rlen.toNat ≤ Config.bufMax →
        exec (.read adr) s = .next { s with
          status := 3, cmd := encode (.read adr), pc := [⟨.read .a0, none⟩], trace := [],
          adr := some adr, wl := some s.wlen.toNat, rl := some s.rlen.toNat }) ∧
      (s.wlen.toNat ≤ Config.bufMax → s.rlen.toNat ≤ Config.bufMax →
        exec (.writeRead adr) s = .next { s with
          status := 3, cmd := encode (.writeRead adr), pc := [⟨.writeRead .a0, none⟩], trace := [],
          adr := some adr, wl := some s.wlen.toNat, rl := some s.rlen.toNat }))

/-- R22, R52, R165: which accesses of the host to registers and buffers are carried out, and which are refused with
ACCESS (code 6), changing nothing. (A register read is carried out while busy too: log 23. The responses are the
model's: log 16.) -/
def Obligations.AccessRights : Prop :=
  RefuseReason.access.code = 6 ∧
  ∀ (s : State) (w : Word),
    (s.configured = false → s.busy = false →
      hostAccess (.writeReg .freq w) s = .next { s with freq := w, responses := .written :: s.responses }) ∧
    (s.configured = true ∨ s.busy = true →
      hostAccess (.writeReg .freq w) s = .next { s with responses := .refused .access :: s.responses }) ∧
    (s.busy = false →
      hostAccess (.writeReg .wlen w) s = .next { s with wlen := w, responses := .written :: s.responses } ∧
      hostAccess (.writeReg .rlen w) s = .next { s with rlen := w, responses := .written :: s.responses }) ∧
    (s.busy = true →
      hostAccess (.writeReg .wlen w) s = .next { s with responses := .refused .access :: s.responses } ∧
      hostAccess (.writeReg .rlen w) s = .next { s with responses := .refused .access :: s.responses }) ∧
    (∀ r : Reg, r = .status ∨ r = .result ∨ r = .errKind ∨ r = .halfUs →
      hostAccess (.writeReg r w) s = .next { s with responses := .refused .access :: s.responses }) ∧
    (∀ r : Reg, ∃ x n, hostAccess (.readReg r) s = .next { s with responses := x :: s.responses, freeIdx := n } ∧
      ∀ q, x ≠ .refused q) ∧
    (∀ (i : Nat) (v : Byte),
      (s.busy = false → i < Config.bufMax →
        hostAccess (.writeBuf .wbuf i v) s =
          .next { s with wbuf := Memory.write .wbuf s.wbuf i v, responses := .written :: s.responses } ∧
        hostAccess (.writeBuf .rbuf i v) s =
          .next { s with rbuf := Memory.write .rbuf s.rbuf i v, responses := .written :: s.responses } ∧
        hostAccess (.readBuf .wbuf i) s =
          .next { s with responses := .byte (Memory.read .wbuf s.wbuf i) :: s.responses } ∧
        hostAccess (.readBuf .rbuf i) s =
          .next { s with responses := .byte (Memory.read .rbuf s.rbuf i) :: s.responses }) ∧
      (s.busy = true ∨ Config.bufMax ≤ i → ∀ b : Buf,
        hostAccess (.writeBuf b i v) s = .next { s with responses := .refused .access :: s.responses } ∧
        hostAccess (.readBuf b i) s = .next { s with responses := .refused .access :: s.responses }))

/-- R22, R23: what register reads return; reserved bits read as 0; ERRKIND is what the pin port answered while RESULT is
PIN_FAULT. (A read of CMD, and of ERRKIND otherwise, returns a free value.) -/
def Obligations.RegisterReads : Prop :=
  ∀ s : State,
    (∃ w : Word, hostAccess (.readReg .status) s = .next { s with responses := .word w :: s.responses } ∧
      w.getLsbD 0 = s.configured ∧ w.getLsbD 1 = s.busy ∧ ∀ n, 2 ≤ n → w.getLsbD n = false) ∧
    (∃ w : Word, hostAccess (.readReg .result) s = .next { s with responses := .word w :: s.responses } ∧
      w.extractLsb' 0 2 = s.result.extractLsb' 0 2 ∧ ∀ n, 2 ≤ n → w.getLsbD n = false) ∧
    (s.result = 2 →
      hostAccess (.readReg .errKind) s = .next { s with responses := .errKind s.errKind :: s.responses }) ∧
    hostAccess (.readReg .freq) s = .next { s with responses := .word s.freq :: s.responses } ∧
    hostAccess (.readReg .halfUs) s = .next { s with responses := .word s.halfUs :: s.responses } ∧
    hostAccess (.readReg .wlen) s = .next { s with responses := .word s.wlen :: s.responses } ∧
    hostAccess (.readReg .rlen) s = .next { s with responses := .word s.rlen :: s.responses }

/-- R52, R165: host access to the buffers. A byte written is read back, every other byte of both buffers reads as
before; while busy, or at an index at or above `BUF_MAX`, the access is refused and changes nothing. -/
def Obligations.HostBufferAccess : Prop :=
  ∀ (s : State) (b : Buf) (i : Nat) (v : Byte),
    (s.busy = false → i < Config.bufMax → ∃ t,
      hostAccess (.writeBuf b i v) s = .next t ∧ t.responses = .written :: s.responses ∧
      t = { s with wbuf := t.wbuf, rbuf := t.rbuf, responses := t.responses } ∧
      hostAccess (.readBuf b i) t = .next { t with responses := .byte v :: t.responses } ∧
      ∀ c j, (c, j) ≠ (b, i) → Memory.read c (t.buf c) j = Memory.read c (s.buf c) j) ∧
    (s.busy = true ∨ Config.bufMax ≤ i →
      hostAccess (.writeBuf b i v) s = .next { s with responses := .refused .access :: s.responses } ∧
      hostAccess (.readBuf b i) s = .next { s with responses := .refused .access :: s.responses })

/-- R33, R180: the state after hardware reset. (CMD, the buffers and ERRKIND have no value in the spec: log 7, 8, 9.) -/
def Obligations.ResetValues : Prop :=
  State.reset.freq = 0 ∧ State.reset.halfUs = 0 ∧ State.reset.status = 0 ∧ State.reset.configured = false ∧
  State.reset.busy = false ∧ State.reset.result = 0 ∧ State.reset.wlen = 0 ∧ State.reset.rlen = 0 ∧
  State.reset.drvScl = .unclaimed ∧ State.reset.drvSda = .unclaimed ∧ State.reset.pc = [] ∧
  State.reset.adr = none ∧ State.reset.wl = none ∧ State.reset.rl = none ∧ State.reset.locals = Locals.dead ∧
  State.reset.trace = []

/-- R180: after reset the engine accepts only NEW; any other word is refused UNCONFIGURED or ILLEGAL. -/
def Obligations.ResetAcceptsOnlyNew : Prop :=
  ∀ w : Word,
    (w = 1 → ∃ t, hostAccess (.writeReg .cmd w) State.reset = .next t ∧ t.busy = true ∧ t.pc = [⟨.new .n0, none⟩]) ∧
    (w ≠ 1 → ∃ r, (r = .unconfigured ∨ r = .illegal) ∧
      hostAccess (.writeReg .cmd w) State.reset = .next (State.reset.respond (.refused r)))

/-! ## The step -/

/-- R28: a step that is not the host's runs the operation on top of the control stack, with the operands its registers
hold; an idle engine does nothing (R180). -/
def Obligations.StepRunsTheTopOperation : Prop :=
  ∀ s : State, s.due = none →
    (∀ f rest i, s.pc = f :: rest → s.operationAt f.pos = some i → step s = exec i s.tick) ∧
    (s.pc = [] → step s = .next s.tick)

/-- R72: a step in which the host's write to `CMD` lands on an engine that is not busy runs the command its word decodes
to, with that access taken from the host's list. -/
def Obligations.StepRunsTheIssuedCommand : Prop :=
  ∀ (s : State) (w : Word) (i : Instr), s.due = some (.writeReg .cmd w) → s.busy = false →
    decode w = .ok i → i.isCommand = true →
    step s = exec i { s with requests := s.requests.tail }

/-- R70, R72: an operation's word, placed where the machine fetches, is what the next step runs: a command as the host's
write to `CMD`, an internal operation as the top frame. -/
def Obligations.PlacedWordRuns : Prop :=
  ∀ (s : State) (i : Instr),
    (i.isCommand = true →
      step (s.withFetchWord 32 (encode i).toNat) =
        exec i { s.withFetchWord 32 (encode i).toNat with requests := s.requests }) ∧
    (i.isCommand = false →
      step (s.withFetchWord 32 (encode i).toNat) = exec i (s.withFetchWord 32 (encode i).toNat) ∧
      (s.withFetchWord 32 (encode i).toNat).pc = ⟨entryOf i, none⟩ :: s.pc)

/-! ## The control stack and the two ends of a command -/

/-- R10, R27, R137: what `return` does: the caller receives the value; the return of the bottom frame ends the command
with OK. -/
def Obligations.ReturnAndCommandEnd : Prop :=
  ∀ (s : State) (v : Byte),
    (∀ f g rest, s.pc = f :: g :: rest →
      s.ret v = { s with pc := ⟨g.pos, some v⟩ :: rest, locals := s.locals.drop f.pos.op }) ∧
    (∀ f, s.pc = [f] →
      s.ret v = { s with
        pc := [], locals := Locals.dead, adr := none, wl := none, rl := none, result := 1,
        status := statusWord s.configured false, responses := .ok :: s.responses })

/-- R150, R151, R152, R160, R161: whatever operation runs and however deep the stack is, when the event a statement
issues is answered `err(k)` the command ends: the stack is empty, RESULT is PIN_FAULT, ERRKIND is `k`, BUSY is 0, the
response is `PIN_FAULT(k)`, the failed event is the last, drv is unchanged but for the line of a failed SetDir or SetVal,
which is UNKNOWN, and nothing else changes. NEW with FREQ = 0 ends in DivFault with no event, and nothing else ends so. -/
def Obligations.FaultsEndTheCommand : Prop :=
  (∀ (i : Instr) (s t : State) (e : Event) (k : PErr),
    exec i s = .next t → t.trace = e :: s.trace → e.answerOf = some (.err k) →
    t = { s with
      pc := [], result := 2, errKind := k, status := statusWord s.configured false
      responses := .pinFault k :: s.responses, locals := Locals.dead, adr := none, wl := none, rl := none
      trace := e :: s.trace, drvScl := (e.lines s.lines).1, drvSda := (e.lines s.lines).2
      answers := t.answers, freeIdx := t.freeIdx }) ∧
  (∀ (s : State) (r : Option Byte) (rest : List Frame), s.pc = ⟨.new .n0, r⟩ :: rest → s.freq = 0 →
    exec .new s = .next { s with
      pc := [], result := 3, status := statusWord s.configured false
      responses := .divFault :: s.responses, locals := Locals.dead, adr := none, wl := none, rl := none }) ∧
  (∀ (i : Instr) (s t : State), exec i s = .next t → t.responses = .divFault :: s.responses →
    i = .new ∧ s.freq = 0 ∧ ∃ r rest, s.pc = ⟨.new .n0, r⟩ :: rest)

/-! ## The statements of each operation -/

/-- R90: its word, its statements, and where a fault leaves the line. -/
def Obligations.PullStatements : Prop :=
  ∀ (L : Line) (s : State) (r : Option Byte) (rest : List Frame),
    encode (.pull L) = (0#27 ++ (if L = .sda then 1#1 else 0#1) ++ 12#4 : BitVec 32) ∧
    DrivesThen (.pull L) s (.pull .p0) r rest L (.setDir L .output) .outUnset (.pull .p1) ∧
    DrivesThen (.pull L) s (.pull .p1) r rest L (.setVal L 0) .pulled (.pull .p2) ∧
    DelaysThen (.pull L) s (.pull .p2) r rest s.halfUs.toNat (.pull .p3) ∧
    Does (.pull L) s (.pull .p3) r rest (s.ret 0)

/-- R91: its word, its statements, and where a fault leaves the line. -/
def Obligations.ReleaseStatements : Prop :=
  ∀ (L : Line) (s : State) (r : Option Byte) (rest : List Frame),
    encode (.release L) = (0#27 ++ (if L = .sda then 1#1 else 0#1) ++ 13#4 : BitVec 32) ∧
    DrivesThen (.release L) s (.release .l0) r rest L (.setDir L .input) .released (.release .l1) ∧
    DelaysThen (.release L) s (.release .l1) r rest s.halfUs.toNat (.release .l2) ∧
    SamplesThen (.release L) s (.release .l2) r rest L (fun v => { s.locals with releaseV := some v }) (.release .l3) ∧
    (∀ v : Bit, s.locals.releaseV = some v → Does (.release L) s (.release .l3) r rest (s.ret (v.setWidth 8)))

/-- R92: one sample of the clock, one long delay if it is 0, no second sample. -/
def Obligations.WaitClockReleasedStatements : Prop :=
  ∀ (s : State) (r : Option Byte) (rest : List Frame),
    encode .waitClockReleased = 14 ∧
    DrivesThen .waitClockReleased s (.waitClockReleased .w0) r rest .scl (.setDir .scl .input) .released
      (.waitClockReleased .w1) ∧
    DelaysThen .waitClockReleased s (.waitClockReleased .w1) r rest s.halfUs.toNat (.waitClockReleased .w2) ∧
    SamplesThen .waitClockReleased s (.waitClockReleased .w2) r rest .scl (fun v => { s.locals with waitV := some v })
      (.waitClockReleased .w3) ∧
    (s.locals.waitV = some 0 →
      DelaysThen .waitClockReleased s (.waitClockReleased .w3) r rest Config.tStretchUs (.waitClockReleased .w4)) ∧
    (s.locals.waitV = some 1 →
      Does .waitClockReleased s (.waitClockReleased .w3) r rest { s with pc := ⟨.waitClockReleased .w4, none⟩ :: rest }) ∧
    DelaysThen .waitClockReleased s (.waitClockReleased .w4) r rest s.halfUs.toNat (.waitClockReleased .w5) ∧
    Does .waitClockReleased s (.waitClockReleased .w5) r rest (s.ret 0)

/-- R93: its word, its statements, and where a fault leaves the line. -/
def Obligations.ReadDataIdleStatements : Prop :=
  ∀ (s : State) (r : Option Byte) (rest : List Frame),
    encode .readDataIdle = 15 ∧
    DrivesThen .readDataIdle s (.readDataIdle .i0) r rest .sda (.setDir .sda .input) .released (.readDataIdle .i1) ∧
    DelaysThen .readDataIdle s (.readDataIdle .i1) r rest s.halfUs.toNat (.readDataIdle .i2) ∧
    SamplesThen .readDataIdle s (.readDataIdle .i2) r rest .sda (fun v => { s.locals with idleV := some v })
      (.readDataIdle .i3) ∧
    (∀ v : Bit, s.locals.idleV = some v → Does .readDataIdle s (.readDataIdle .i3) r rest (s.ret (v.setWidth 8)))

/-- R100: recovery is called exactly when the data line read 0 at S0, and the line is not sampled again. -/
def Obligations.StartStatements : Prop :=
  ∀ (s : State) (rest : List Frame),
    CallsThen .start s (.start .s0) .readDataIdle rest (.start .s1)
      (fun v => { s.locals with startD := some (v.setWidth 1) }) ∧
    (s.locals.startD = some 0 → CallsThen .start s (.start .s1) .recover rest (.start .s2) fun _ => s.locals) ∧
    (s.locals.startD = some 1 → Does .start s (.start .s1) none rest { s with pc := ⟨.start .s2, none⟩ :: rest }) ∧
    CallsThen .start s (.start .s2) .waitClockReleased rest (.start .s3) (fun _ => s.locals) ∧
    CallsThen .start s (.start .s3) (.pull .sda) rest (.start .s4) (fun _ => s.locals) ∧
    CallsThen .start s (.start .s4) (.pull .scl) rest (.start .s5) (fun _ => s.locals) ∧
    ∀ r, Does .start s (.start .s5) r rest (s.ret 0)

/-- R101: STOP is replaced by RECOVER exactly when the data line read 0 after its release. -/
def Obligations.StopStatements : Prop :=
  ∀ (s : State) (rest : List Frame),
    CallsThen .stop s (.stop .e0) .waitClockReleased rest (.stop .e1) (fun _ => s.locals) ∧
    CallsThen .stop s (.stop .e1) (.release .sda) rest (.stop .e2)
      (fun v => { s.locals with stopD := some (v.setWidth 1) }) ∧
    (∀ r, s.locals.stopD = some 0 → Does .stop s (.stop .e2) r rest
      { s with pc := ⟨.recover .v0, none⟩ :: rest, locals := { s.locals with stopD := none } }) ∧
    (∀ r, s.locals.stopD = some 1 → Does .stop s (.stop .e2) r rest { s with pc := ⟨.stop .e3, none⟩ :: rest }) ∧
    ∀ r, Does .stop s (.stop .e3) r rest (s.ret 0)

/-- R102: of the bit's three samples only the third, at B2, is kept. -/
def Obligations.ReadBitStatements : Prop :=
  ∀ (s : State) (rest : List Frame),
    CallsThen .readBit s (.readBit .b0) (.release .sda) rest (.readBit .b1) (fun _ => s.locals) ∧
    CallsThen .readBit s (.readBit .b1) .waitClockReleased rest (.readBit .b2) (fun _ => s.locals) ∧
    CallsThen .readBit s (.readBit .b2) .readDataIdle rest (.readBit .b3)
      (fun v => { s.locals with readBitB := some (v.setWidth 1) }) ∧
    CallsThen .readBit s (.readBit .b3) (.pull .scl) rest (.readBit .b4) (fun _ => s.locals) ∧
    CallsThen .readBit s (.readBit .b4) (.pull .sda) rest (.readBit .b5) (fun _ => s.locals) ∧
    ∀ r (b : Bit), s.locals.readBitB = some b → Does .readBit s (.readBit .b5) r rest (s.ret (b.setWidth 8))

/-- R103: a 1 is sent by releasing the data line, a 0 by pulling it; the level read is discarded. -/
def Obligations.WriteBitStatements : Prop :=
  ∀ (s : State) (rest : List Frame),
    CallsThen (.writeBit 1) s (.writeBit .c0) (.release .sda) rest (.writeBit .c1) (fun _ => s.locals) ∧
    CallsThen (.writeBit 0) s (.writeBit .c0) (.pull .sda) rest (.writeBit .c1) (fun _ => s.locals) ∧
    ∀ bit : Bit,
      CallsThen (.writeBit bit) s (.writeBit .c1) .waitClockReleased rest (.writeBit .c2) (fun _ => s.locals) ∧
      CallsThen (.writeBit bit) s (.writeBit .c2) (.pull .scl) rest (.writeBit .c3) (fun _ => s.locals) ∧
      CallsThen (.writeBit bit) s (.writeBit .c3) (.pull .sda) rest (.writeBit .c4) (fun _ => s.locals) ∧
      ∀ r, Does (.writeBit bit) s (.writeBit .c4) r rest (s.ret 0)

/-- R110: eight bits shifted in from the low end, then the ninth bit, 0 if `send_ack` is 1 and 1 if it is 0, whatever the
byte read. (That `i` is 7 from Y0 on and stays 0 when the loop ends is the model's: log 5.) -/
def Obligations.ReadByteStatements : Prop :=
  ∀ (sa : Bit) (s : State) (rest : List Frame) (v : Byte) (i : BitVec 3),
    (∀ r, Does (.readByte sa) s (.readByte .y0) r rest
      { s with pc := ⟨.readByte .y1, none⟩ :: rest,
               locals := { s.locals with readByteV := some 0, readByteI := some 7 } }) ∧
    (s.locals.readByteV = some v → s.locals.readByteI = some i →
      CallsThen (.readByte sa) s (.readByte .y1) .readBit rest (.readByte (if i = 0 then .y2 else .y1))
        fun b => { s.locals with
          readByteV := some ((v <<< 1) ||| (b &&& 1)), readByteI := some (if i = 0 then 0 else i - 1) }) ∧
    CallsThen (.readByte sa) s (.readByte .y2) (.writeBit (if sa = 1 then 0 else 1)) rest (.readByte .y3)
      (fun _ => s.locals) ∧
    (∀ r, s.locals.readByteV = some v → Does (.readByte sa) s (.readByte .y3) r rest (s.ret v))

/-- R50, R111: bit `i` of the byte is sent for `i` from 7 down to 0, then the acknowledge bit is sampled and returned,
with no test of it. -/
def Obligations.WriteByteStatements : Prop :=
  ∀ (byte : Byte) (s : State) (rest : List Frame) (i : BitVec 3),
    (s.locals.writeByteI = some i →
      CallsThen (.writeByte byte) s (.writeByte .x0) (.writeBit (BitVec.ofBool (byte.getLsbD i.toNat))) rest
        (.writeByte (if i = 0 then .x1 else .x0))
        fun _ => { s.locals with writeByteI := some (if i = 0 then 0 else i - 1) }) ∧
    CallsThen (.writeByte byte) s (.writeByte .x1) .readBit rest (.writeByte .x2)
      (fun v => { s.locals with writeByteAck := some (v.setWidth 1) }) ∧
    ∀ r (ack : Bit), s.locals.writeByteAck = some ack →
      Does (.writeByte byte) s (.writeByte .x2) r rest (s.ret (ack.setWidth 8))

/-- R120: the pulse and burst counters, the check after each burst, the two pulls, clock first, and the final STOP. -/
def Obligations.RecoverStatements : Prop :=
  ∀ (s : State) (rest : List Frame),
    CallsThen .recover s (.recover .v0) (.release .sda) rest (.recover .v1) (fun _ => s.locals) ∧
    (∀ r, Does .recover s (.recover .v1) r rest
      { s with pc := ⟨.recover .v2, none⟩ :: rest, locals := { s.locals with recoverBurst := some 0 } }) ∧
    (∀ r, Does .recover s (.recover .v2) r rest
      { s with pc := ⟨.recover .v3, none⟩ :: rest, locals := { s.locals with recoverPulse := some 0 } }) ∧
    CallsThen .recover s (.recover .v3) (.pull .scl) rest (.recover .v4) (fun _ => s.locals) ∧
    CallsThen .recover s (.recover .v4) (.release .scl) rest (.recover .v5) (fun _ => s.locals) ∧
    (∀ r (p : BitVec 4), s.locals.recoverPulse = some p → p.toNat < 15 → Does .recover s (.recover .v5) r rest
      { s with pc := ⟨.recover (if p.toNat + 1 < 10 then .v3 else .v6), none⟩ :: rest,
               locals := { s.locals with recoverPulse := some (p + 1) } }) ∧
    (∀ r, DelaysThen .recover s (.recover .v6) r rest 10000 (.recover .v7)) ∧
    CallsThen .recover s (.recover .v7) .readDataIdle rest (.recover .v8)
      (fun v => { s.locals with recoverD := some (v.setWidth 1) }) ∧
    (∀ r (b : BitVec 7) (d : Bit), s.locals.recoverBurst = some b → s.locals.recoverD = some d → b.toNat < 127 →
      Does .recover s (.recover .v8) r rest
        { s with pc := ⟨.recover (if d = 0 ∧ b.toNat + 1 < 100 then .v2 else .v9), none⟩ :: rest,
                 locals := { s.locals with recoverBurst := some (b + 1) } }) ∧
    CallsThen .recover s (.recover .v9) (.pull .scl) rest (.recover .v10) (fun _ => s.locals) ∧
    CallsThen .recover s (.recover .v10) (.pull .sda) rest (.recover .v11) (fun _ => s.locals) ∧
    ∀ r, Does .recover s (.recover .v11) r rest
      { s with pc := ⟨.stop .e0, none⟩ :: rest,
               locals := { s.locals with recoverBurst := none, recoverPulse := none, recoverD := none } }

/-- R130: the zero test with DivFault and no event, the two exports, clock first, then HALF_US and CONFIGURED. With FREQ = 0,
where N0 lets no run come to N3, the quotient is undefined (R9): there N3 leaves some value in HALF_US, the model's free
one (DESIGN CHOICE, log 25), and does the rest as for every FREQ. -/
def Obligations.NewStatements : Prop :=
  ∀ (s : State) (r : Option Byte) (rest : List Frame),
    (s.freq = 0 → Does .new s (.new .n0) r rest
      { s with
        pc := [], locals := Locals.dead, adr := none, wl := none, rl := none, result := 3,
        status := statusWord s.configured false, responses := .divFault :: s.responses }) ∧
    (s.freq ≠ 0 → Does .new s (.new .n0) r rest { s with pc := ⟨.new .n1, none⟩ :: rest }) ∧
    (∀ v, s.nextAnswer = .ok v → Does .new s (.new .n1) r rest
      { s.issued (.claim .scl .ok) with drvScl := .unknown, pc := ⟨.new .n2, none⟩ :: rest }) ∧
    (∀ k, s.nextAnswer = .err k → Does .new s (.new .n1) r rest
      ((s.issued (.claim .scl (.err k))).afterPinFault k)) ∧
    (∀ v, s.nextAnswer = .ok v → Does .new s (.new .n2) r rest
      { s.issued (.claim .sda .ok) with drvSda := .unknown, pc := ⟨.new .n3, none⟩ :: rest }) ∧
    (∀ k, s.nextAnswer = .err k → Does .new s (.new .n2) r rest
      ((s.issued (.claim .sda (.err k))).afterPinFault k)) ∧
    (s.freq ≠ 0 → Does .new s (.new .n3) r rest
      { s with halfUs := BitVec.ofNat 32 (500000 / s.freq.toNat), status := statusWord true s.busy,
               pc := ⟨.new .n4, none⟩ :: rest }) ∧
    (s.freq = 0 → ∃ quotient : Word, Does .new s (.new .n3) r rest
      { s with halfUs := quotient, status := statusWord true s.busy, pc := ⟨.new .n4, none⟩ :: rest }) ∧
    Does .new s (.new .n4) r rest (s.ret 0)

/-- R131. -/
def Obligations.WriteStatements : Prop :=
  ∀ (adr : Addr) (s : State) (rest : List Frame),
    CallsThen (.write adr) s (.write .a0) .start rest (.write .a1) (fun _ => s.locals) ∧
    SendsAddress (.write adr) s (.write .a1) rest adr 0 (.write .a2) ∧
    SendsFrom (.write adr) s (.write .a2) (.write .a3) rest ∧
    CallsThen (.write adr) s (.write .a3) .stop rest (.write .a4) (fun _ => s.locals) ∧
    ∀ r, Does (.write adr) s (.write .a4) r rest (s.ret 0)

/-- R132. -/
def Obligations.ReadStatements : Prop :=
  ∀ (adr : Addr) (s : State) (rest : List Frame),
    CallsThen (.read adr) s (.read .a0) .start rest (.read .a1) (fun _ => s.locals) ∧
    SendsAddress (.read adr) s (.read .a1) rest adr 1 (.read .a2) ∧
    ReceivesFrom (.read adr) s (.read .a2) (.read .a3) rest ∧
    CallsThen (.read adr) s (.read .a3) .stop rest (.read .a4) (fun _ => s.locals) ∧
    ∀ r, Does (.read adr) s (.read .a4) r rest (s.ret 0)

/-- R133: the repeated start at A3 is the operation START, with no STOP before it. -/
def Obligations.WriteReadStatements : Prop :=
  ∀ (adr : Addr) (s : State) (rest : List Frame),
    CallsThen (.writeRead adr) s (.writeRead .a0) .start rest (.writeRead .a1) (fun _ => s.locals) ∧
    SendsAddress (.writeRead adr) s (.writeRead .a1) rest adr 0 (.writeRead .a2) ∧
    SendsFrom (.writeRead adr) s (.writeRead .a2) (.writeRead .a3) rest ∧
    CallsThen (.writeRead adr) s (.writeRead .a3) .start rest (.writeRead .a4) (fun _ => s.locals) ∧
    SendsAddress (.writeRead adr) s (.writeRead .a4) rest adr 1 (.writeRead .a5) ∧
    ReceivesFrom (.writeRead adr) s (.writeRead .a5) (.writeRead .a6) rest ∧
    CallsThen (.writeRead adr) s (.writeRead .a6) .stop rest (.writeRead .a7) (fun _ => s.locals) ∧
    ∀ r, Does (.writeRead adr) s (.writeRead .a7) r rest (s.ret 0)

/-! ## Whole operations, on a machine the host leaves alone -/

/-- R90 to R94: the four line operations, each issuing exactly its events, for every level sampled. -/
def Obligations.LineOperationsRun : Prop :=
  (∀ L : Line, CallRuns (.pull L) (pullEvents · L) (withLine L .pulled) 0) ∧
  (∀ (L : Line) (v : Bit), CallRuns (.release L) (sampleEvents · L v) (withLine L .released) (v.setWidth 8)) ∧
  (∀ c : Bit, CallRuns .waitClockReleased (waitEvents · c) (withLine .scl .released) 0) ∧
  (∀ v : Bit, CallRuns .readDataIdle (sampleEvents · .sda v) (withLine .sda .released) (v.setWidth 8))

/-- R100 to R104: START and STOP with the data line reading 1, READ_BIT and WRITE_BIT with every level: their events, the
lines they leave, the bit READ_BIT returns (the third sample), whatever the clock read. -/
def Obligations.BitOperationsRun : Prop :=
  (∀ c : Bit, CallRuns .start (startEvents · c) (fun _ => (.pulled, .pulled)) 0) ∧
  (∀ c : Bit, CallRuns .stop (stopEvents · c) (fun _ => (.released, .released)) 0) ∧
  (∀ u c b : Bit, CallRuns .readBit (readBitEvents · u c b) (fun _ => (.pulled, .pulled)) (b.setWidth 8)) ∧
  (∀ bit u c : Bit, CallRuns (.writeBit bit) (writeBitEvents · bit u c) (fun _ => (.pulled, .pulled)) 0)

/-- R50, R110, R111: WRITE_BYTE sends the bits of its byte, the most significant first, and returns the acknowledge bit
it samples; READ_BYTE returns the byte whose bits it sampled, the first in bit 7, and sends ACK or NACK by `send_ack`
alone. For every byte and every level of both lines, clock stretching included. -/
def Obligations.ByteOperationsRun : Prop :=
  (∀ (byte : Byte) (lv : ByteLevels) (ack : Bit),
    CallRuns (.writeByte byte) (writeByteEvents · byte lv ack) (fun _ => (.pulled, .pulled)) (ack.setWidth 8)) ∧
  (∀ (sa : Bit) (v : Byte) (lv : ByteLevels),
    CallRuns (.readByte sa) (readByteEvents · sa v lv) (fun _ => (.pulled, .pulled)) v)

/-- R120, R121: RECOVER up to its V11 runs `k` bursts, `k` the first check that reads 1 or `MAX_BURSTS`, at least one,
issuing 9 + 64 `k` events with 10 `k` pulses of the clock before its last pull of it, and leaves both lines pulled. -/
def Obligations.RecoverRuns : Prop :=
  ∀ (s : State) (rest : List Frame) (as : List PinAnswer) (v0 last : Bit) (clock : Nat → Nat → Bit) (k : Nat),
    1 ≤ k → k ≤ 100 → (last = 1 ∨ k = 100) → s.quiet → s.pc = ⟨.recover .v0, none⟩ :: rest →
    calleesDead .recover s.locals →
    s.answers = answersFor (recoverEvents s.halfUs.toNat v0 clock k last) ++ as →
    Runs s { s with
      answers := as, trace := (recoverEvents s.halfUs.toNat v0 clock k last).reverse ++ s.trace
      drvScl := .pulled, drvSda := .pulled, pc := ⟨.recover .v11, none⟩ :: rest
      locals := { s.locals with
        recoverBurst := some (BitVec.ofNat 7 k), recoverPulse := some 10, recoverD := some last } } ∧
    (recoverEvents s.halfUs.toNat v0 clock k last).length = 9 + 64 * k ∧
    (recoverEvents s.halfUs.toNat v0 clock k last).countP (fun e => e = .setDir .scl .output .ok) = 10 * k + 1

/-- R130: NEW with a positive frequency and both exports answered ok. -/
def Obligations.NewRuns : Prop :=
  ∀ (s : State) (as : List PinAnswer) (u v : Bit), s.quiet → s.pc = [⟨.new .n0, none⟩] → s.freq ≠ 0 →
    s.answers = .ok u :: .ok v :: as →
    Runs s { (s.endedOk [.claim .scl .ok, .claim .sda .ok] as (.unknown, .unknown)) with
      halfUs := BitVec.ofNat 32 (500000 / s.freq.toNat), status := 1 }

/-- R78, R131, R134: WRITE, for every address, every bytes and every levels, acknowledged or not: the frame
S, address byte, data bytes in order, P, then OK with both lines released and no buffer changed. -/
def Obligations.WriteRuns : Prop :=
  ∀ (s : State) (adr : Addr) (n : Nat) (b : BusLevels) (as : List PinAnswer) (bytes : List Byte),
    s.quiet → s.pc = [⟨.write .a0, none⟩] → s.adr = some adr → s.wl = some n → n ≤ Config.bufMax →
    s.locals = Locals.dead → bytes = (List.range n).map (Memory.read .wbuf s.wbuf) →
    s.answers = answersFor (writeEvents s.halfUs.toNat adr bytes b) ++ as →
    Runs s (s.endedOk (writeEvents s.halfUs.toNat adr bytes b) as (.released, .released))

/-- R78, R132, R134: READ, for every address, every bytes the peer sends and every levels: the frame S, address byte,
received bytes with ACK after all but the last, P; RBUF holds the bytes, every other byte of it is unchanged. -/
def Obligations.ReadRuns : Prop :=
  ∀ (s : State) (adr : Addr) (b : BusLevels) (as : List PinAnswer) (bytes : List Byte),
    s.quiet → s.pc = [⟨.read .a0, none⟩] → s.adr = some adr → s.rl = some bytes.length →
    bytes.length ≤ Config.bufMax → s.locals = Locals.dead →
    s.answers = answersFor (readEvents s.halfUs.toNat adr bytes b) ++ as →
    ∃ m : Memory,
      Runs s { (s.endedOk (readEvents s.halfUs.toNat adr bytes b) as (.released, .released)) with rbuf := m } ∧
      (∀ (i : Nat) (h : i < bytes.length), Memory.read .rbuf m i = bytes[i]) ∧
      ∀ i, bytes.length ≤ i → Memory.read .rbuf m i = Memory.read .rbuf s.rbuf i

/-- R78, R133, R134: WRITE_READ: the frame S, address byte, data bytes, Sr, address byte, received bytes, P. -/
def Obligations.WriteReadRuns : Prop :=
  ∀ (s : State) (adr : Addr) (n : Nat) (b : BusLevels) (as : List PinAnswer) (out inn : List Byte),
    s.quiet → s.pc = [⟨.writeRead .a0, none⟩] → s.adr = some adr → s.wl = some n → n ≤ Config.bufMax →
    s.rl = some inn.length → inn.length ≤ Config.bufMax → s.locals = Locals.dead →
    out = (List.range n).map (Memory.read .wbuf s.wbuf) →
    s.answers = answersFor (writeReadEvents s.halfUs.toNat adr out inn b) ++ as →
    ∃ m : Memory,
      Runs s { (s.endedOk (writeReadEvents s.halfUs.toNat adr out inn b) as (.released, .released)) with rbuf := m } ∧
      (∀ (i : Nat) (h : i < inn.length), Memory.read .rbuf m i = inn[i]) ∧
      ∀ i, inn.length ≤ i → Memory.read .rbuf m i = Memory.read .rbuf s.rbuf i

/-- R13, R105, R135: the events a transaction without recovery appends to the trace hold one, one and two start edges and
one stop edge each, begun in either pair of line states a transaction begins in, whatever the bytes, the levels and the
acknowledge bits, clock stretching included. -/
def Obligations.TransactionEdges : Prop :=
  ∀ (s : State) (adr : Addr) (out inn : List Byte) (b : BusLevels), entryLines s.lines = true →
    (WriteBegins s adr out b → EndsWith s fun es => edgeCounts s.lines es = (1, 1)) ∧
    (ReadBegins s adr inn b → EndsWith s fun es => edgeCounts s.lines es = (1, 1)) ∧
    (WriteReadBegins s adr out inn b → EndsWith s fun es => edgeCounts s.lines es = (2, 1))

/-- R135: how many events a transaction with no clock stretching and no recovery appends to the trace, and how many of
them are half-period delays. -/
def Obligations.TransactionCounts : Prop :=
  ∀ (s : State) (adr : Addr) (out inn : List Byte) (b : BusLevels), b.clockHigh →
    (WriteBegins s adr out b → EndsWith s fun es =>
      es.length = 20 + 120 * (1 + out.length) ∧
      delayCount s.halfUs.toNat es = 8 + 46 * (1 + out.length)) ∧
    (ReadBegins s adr inn b → EndsWith s fun es =>
      es.length = 140 + 141 * inn.length ∧
      delayCount s.halfUs.toNat es = 54 + 53 * inn.length) ∧
    (WriteReadBegins s adr out inn b → EndsWith s fun es =>
      es.length = 153 + 120 * (1 + out.length) + 141 * inn.length ∧
      delayCount s.halfUs.toNat es = 59 + 46 * (1 + out.length) + 53 * inn.length)

/-- R195, R202: as long as every pin event is answered ok and every data sample STOP takes reads 0, whatever every other
sample reads, the clock's included, a transaction never ends: after any number of steps it is still running, BUSY is 1
and no response has been given. -/
def Obligations.StuckDataLineNeverEnds : Prop :=
  ∀ (n : Nat) (s : State), s.quiet → s.busy = true → s.live →
    (s.pc = [⟨.write .a0, none⟩] ∨ s.pc = [⟨.read .a0, none⟩] ∨ s.pc = [⟨.writeRead .a0, none⟩]) →
    (∀ k u, k < n → run k s = .next u →
      (∃ v, u.nextAnswer = .ok v) ∧ (u.atStopSample → u.nextAnswer = .ok 0)) →
    ∃ t, run n s = .next t ∧ t.busy = true ∧ t.pc ≠ [] ∧ t.responses = s.responses

/-! ## Invariants: each is kept by every step from every state that meets it -/

/-- R23: bits 31:2 of STATUS and RESULT stay 0. -/
def Obligations.ReservedBitsStayZero : Prop :=
  ∀ s t : State, s.reservedInv → step s = .next t → t.reservedInv

/-- R27: BUSY is 1 exactly while the control stack is not empty. -/
def Obligations.BusyExactlyWhileRunning : Prop :=
  ∀ s t : State, s.busyInv → step s = .next t → t.busyInv

/-- R21: while configured, FREQ is positive and HALF_US is `HALF_NUM div FREQ`. -/
def Obligations.ConfiguredFrequencyStays : Prop :=
  ∀ s t : State, s.configInv → step s = .next t → t.configInv

/-- Both buffers keep their canonical form (the model's own, log 9). -/
def Obligations.BuffersStayCanonical : Prop :=
  ∀ s t : State, s.buffersInv → step s = .next t → t.buffersInv

/-- R27, R73: the control stack stays a chain of outstanding calls on one command. -/
def Obligations.StackStaysACallChain : Prop :=
  ∀ s t : State, stackWf s.pc = true → step s = .next t → stackWf t.pc = true

/-- R27: such a stack never holds the same operation twice and never exceeds depth 4. -/
def Obligations.StackDepthAndNoRepeat : Prop :=
  ∀ fs : List Frame, stackWf fs = true → fs.length ≤ 4 ∧ (fs.map fun f => f.pos.op).Nodup

/-- R25, R53: a run never reads a register that holds no value and never leaves a buffer: from every state that meets the
invariant a step meets no fault and keeps it, and only a hardware reset in mid-life is refused. -/
def Obligations.NoStepFaults : Prop :=
  ∀ s : State, s.live →
    (∀ f, step s ≠ .fault f) ∧
    (∀ r, step s = .refused r → r = .midLifeReset ∧ s.due = some .hardwareReset) ∧
    ∀ t, step s = .next t → t.live

/-- R33, R34: between commands no operation register and no latched operand holds a value. -/
def Obligations.NothingCarriesOver : Prop :=
  ∀ s t : State, s.idleInv → s.busyInv → step s = .next t → t.idleInv

/-- R59: every GetVal is issued with its line RELEASED, every SetVal with its line switched to Output and the value 0. -/
def Obligations.SamplesOnlyReleasedLines : Prop :=
  ∀ s t : State, stackWf s.pc = true → s.sampleInv → step s = .next t →
    t.sampleInv ∧
    (∀ L a, t.trace = .getVal L a :: s.trace → s.drv L = .released) ∧
    (∀ L v a, t.trace = .setVal L v a :: s.trace → v = 0 ∧ s.drv L = .outUnset)

/-- R105, R137: in every transaction that begins with both lines RELEASED or both UNKNOWN, the data line changes between
released and not released under a released clock only at START's S3 and at STOP's E1; and a transaction that ends OK
leaves both lines released. -/
def Obligations.DataLineMovesOnlyUnderLowClock : Prop :=
  ∀ s t : State, s.orderInv → s.busyInv → (s.pc = [] → entryLines s.lines = true) → step s = .next t →
    t.orderInv ∧
    (dataEdge s t → t.pc ≠ [] → (∀ f ∈ s.pc, f.pos.op ≠ .new) → atStartEdge s ∨ atStopEdge s) ∧
    (∀ f, s.pc = [f] → f.pos.op ≠ .new → t.responses = .ok :: s.responses → t.lines = (.released, .released))

/-- The state after reset meets every invariant above (R33, R180). -/
def Obligations.ResetMeetsTheInvariants : Prop :=
  State.reset.reservedInv ∧ State.reset.busyInv ∧ State.reset.configInv ∧ State.reset.buffersInv ∧
  State.reset.live ∧ State.reset.idleInv ∧ State.reset.sampleInv ∧ State.reset.orderInv

/-! ## Rules about the whole machine -/

/-- R21, R22, R52: whatever operation runs, the engine writes none of FREQ, WLEN, RLEN and WBUF; only NEW writes HALF_US
and CONFIGURED; only READ and WRITE_READ write RBUF; CMD is the word of the last accepted command. -/
def Obligations.WhatTheEngineWrites : Prop :=
  ∀ (i : Instr) (s t : State), exec i s = .next t →
    t.freq = s.freq ∧ t.wlen = s.wlen ∧ t.rlen = s.rlen ∧ t.wbuf = s.wbuf ∧
    (i ≠ .new → t.halfUs = s.halfUs ∧ t.configured = s.configured) ∧
    ((∀ adr, i ≠ .read adr ∧ i ≠ .writeRead adr) → t.rbuf = s.rbuf) ∧
    (t.cmd = s.cmd ∨ (t.cmd = encode i ∧ t.pc = [⟨entryOf i, none⟩]))

/-- R8, R28, R62: a statement issues at most one event, appended after those before it; the engine never sets a line to
1; only the acceptance of a command begins a new trace. -/
def Obligations.AtMostOneEventAStep : Prop :=
  ∀ (i : Instr) (s t : State), exec i s = .next t →
    t.trace = s.trace ∨
    (∃ e, t.trace = e :: s.trace ∧ ∀ L v a, e = .setVal L v a → v = 0) ∨
    (i.isCommand = true ∧ t.trace = [] ∧ t.pc = [⟨entryOf i, none⟩])

/-- R24: no rule branches on drv: two states that differ only in it take steps that differ only in it. -/
def Obligations.DrvSteersNothing : Prop :=
  ∀ s t : State, s.eraseDrv = t.eraseDrv → mapNext State.eraseDrv (step s) = mapNext State.eraseDrv (step t)

/-- R53, R54, R132, R133: a byte that READ_BYTE has handed back is stored at index `idx` of RBUF; every other byte of RBUF
and every byte of WBUF reads as before. (An index at or above `BUF_MAX`, which R53 says does not occur, is the model's
fault: log 20.) -/
def Obligations.ReceivedByteFrame : Prop :=
  ∀ (adr : Addr) (s : State) (rest : List Frame) (j : Nat) (v : Byte), s.locals.idx = some j →
    ∀ i p, (i = .read adr ∧ p = .read .a2) ∨ (i = .writeRead adr ∧ p = .writeRead .a5) →
      s.pc = ⟨p, some v⟩ :: rest →
      (j < Config.bufMax → ∃ t, exec i s = .next t ∧ Memory.read .rbuf t.rbuf j = v ∧
        (∀ k, k ≠ j → Memory.read .rbuf t.rbuf k = Memory.read .rbuf s.rbuf k) ∧
        ∀ k, Memory.read .wbuf t.wbuf k = Memory.read .wbuf s.wbuf k) ∧
      (Config.bufMax ≤ j → exec i s = .fault .bufferRange)

/-- R134: the acknowledge bit a command holds is never read: two states that differ only in it take steps that differ
only in it. -/
def Obligations.AcknowledgeSteersNothing : Prop :=
  ∀ s t : State, s.eraseAck = t.eraseAck → mapNext State.eraseAck (step s) = mapNext State.eraseAck (step t)

/-- R164, R165, R191: an access of the host while a command runs changes nothing of the engine: it is answered, and only
a free value may be taken for the answer. -/
def Obligations.HostCannotDisturbACommand : Prop :=
  ∀ (s : State) (a : HostAction), s.busy = true → a ≠ .hardwareReset →
    ∃ r n, hostAccess a s = .next { s with responses := r :: s.responses, freeIdx := n }
end

