-- ==== Sys2Proof/Laws/Memory.lean ====
section
/-! SUPPORT. The laws of a buffer: reading back a write, leaving every other byte alone, and keeping the canonical form. -/

namespace Sys2Proof.Machine

/-- No entry of the memory is at or below an index. -/
theorem Memory.listed_eq_none_of_lt {m : Memory} {i : Nat} (h : ∀ c ∈ m, i < c.1) : m.listed i = none := by
  induction m with
  | nil => rfl
  | cons c m ih =>
    have hc := h c (by simp)
    have : c.1 ≠ i := by omega
    simp [Memory.listed, this, ih fun d hd => h d (by simp [hd])]

theorem Memory.listed_insert_self (m : Memory) (i : Nat) (v : Byte) : (Memory.insert m i v).listed i = some v := by
  induction m with
  | nil => simp [Memory.insert, Memory.listed]
  | cons c m ih =>
    simp only [Memory.insert]
    split
    · simp [Memory.listed]
    · split
      · simp [Memory.listed]
      · rename_i h1 h2
        have : c.1 ≠ i := fun h => h2 h.symm
        simp [Memory.listed, this, ih]

theorem Memory.listed_insert_other (m : Memory) {i j : Nat} (v : Byte) (h : j ≠ i) :
    (Memory.insert m i v).listed j = m.listed j := by
  induction m with
  | nil => simp [Memory.insert, Memory.listed, h.symm]
  | cons c m ih =>
    simp only [Memory.insert]
    split
    · simp [Memory.listed, h.symm]
    · split
      · rename_i h1 h2
        subst h2
        simp [Memory.listed, h.symm]
      · by_cases hc : c.1 = j <;> simp [Memory.listed, hc, ih]

theorem Memory.listed_erase_self (m : Memory) (i : Nat) : (m.erase i).listed i = none := by
  induction m with
  | nil => rfl
  | cons c m ih =>
    by_cases h : c.1 = i
    · simpa [Memory.erase, h] using ih
    · simpa [Memory.erase, h, Memory.listed] using ih

theorem Memory.listed_erase_other (m : Memory) {i j : Nat} (h : j ≠ i) : (m.erase i).listed j = m.listed j := by
  induction m with
  | nil => rfl
  | cons c m ih =>
    by_cases hc : c.1 = i
    · have : c.1 ≠ j := by omega
      simpa [Memory.erase, Memory.listed, hc, h.symm] using ih
    · by_cases hj : c.1 = j <;> simp_all [Memory.erase, Memory.listed]

/-- A byte written is read back. -/
@[simp] theorem Memory.read_write_self (b : Buf) (m : Memory) (i : Nat) (v : Byte) :
    Memory.read b (Memory.write b m i v) i = v := by
  unfold Memory.read Memory.write
  split
  · rename_i h; simp [Memory.listed_erase_self, h]
  · simp [Memory.listed_insert_self]

/-- A write leaves every other byte alone. -/
theorem Memory.read_write_other (b : Buf) (m : Memory) {i j : Nat} (v : Byte) (h : j ≠ i) :
    Memory.read b (Memory.write b m i v) j = Memory.read b m j := by
  unfold Memory.read Memory.write
  split
  · simp [Memory.listed_erase_other m h]
  · simp [Memory.listed_insert_other m v h]

theorem Memory.mem_insert {m : Memory} {i : Nat} {v : Byte} {c : Host.Cell} (h : c ∈ Memory.insert m i v) :
    c = (i, v) ∨ c ∈ m := by
  induction m with
  | nil => simpa [Memory.insert] using h
  | cons d m ih =>
    simp only [Memory.insert] at h
    split at h
    · simpa using h
    · split at h
      · rcases List.mem_cons.mp h with h | h
        · exact .inl h
        · exact .inr (List.mem_cons_of_mem _ h)
      · rcases List.mem_cons.mp h with h | h
        · exact .inr (by simp [h])
        · rcases ih h with h | h
          · exact .inl h
          · exact .inr (List.mem_cons_of_mem _ h)

theorem Memory.insert_rising {m : Memory} (i : Nat) (v : Byte) (h : m.Pairwise fun c d => c.1 < d.1) :
    (Memory.insert m i v).Pairwise fun c d => c.1 < d.1 := by
  induction m with
  | nil => simp [Memory.insert]
  | cons c m ih =>
    obtain ⟨hc, hm⟩ := List.pairwise_cons.mp h
    simp only [Memory.insert]
    split
    · rename_i hi
      refine List.pairwise_cons.mpr ⟨fun d hd => ?_, h⟩
      rcases List.mem_cons.mp hd with rfl | hd
      · exact hi
      · exact Nat.lt_trans hi (hc d hd)
    · split
      · rename_i hi
        exact List.pairwise_cons.mpr ⟨fun d hd => by subst hi; exact hc d hd, hm⟩
      · refine List.pairwise_cons.mpr ⟨fun d hd => ?_, ih hm⟩
        rcases Memory.mem_insert hd with rfl | hd
        · show c.1 < i
          omega
        · exact hc d hd

/-- A write keeps the canonical form. -/
theorem Memory.write_wf {b : Buf} {m : Memory} {i : Nat} (v : Byte) (h : Memory.wf b m) (hi : i < Config.bufMax) :
    Memory.wf b (Memory.write b m i v) := by
  unfold Memory.write
  split
  · exact ⟨h.1.filter _, fun c hc => h.2 c (List.mem_of_mem_filter hc)⟩
  · rename_i hv
    refine ⟨Memory.insert_rising i v h.1, fun c hc => ?_⟩
    rcases Memory.mem_insert hc with rfl | hc
    · exact ⟨hi, hv⟩
    · exact h.2 c hc

/-- The empty memory is in canonical form. -/
theorem Memory.wf_nil (b : Buf) : Memory.wf b [] := ⟨List.Pairwise.nil, by simp⟩

/-- Both buffers are in canonical form after reset. -/
theorem State.reset_buffers_wf : Memory.wf .wbuf State.reset.wbuf ∧ Memory.wf .rbuf State.reset.rbuf :=
  ⟨Memory.wf_nil _, Memory.wf_nil _⟩

end Sys2Proof.Machine
end

