-- ==== Sys2Proof/Laws/State.lean ====
section
/-! SUPPORT. The fields of the state after each named update: one lemma a field and update, so that no later proof
unfolds an update. -/

namespace Sys2Proof.Machine


/-! ### `goto` -/

@[simp] theorem State.goto_freq (p : Pos) (s : State) : (s.goto p).freq = s.freq := rfl
@[simp] theorem State.goto_halfUs (p : Pos) (s : State) : (s.goto p).halfUs = s.halfUs := rfl
@[simp] theorem State.goto_cmd (p : Pos) (s : State) : (s.goto p).cmd = s.cmd := rfl
@[simp] theorem State.goto_status (p : Pos) (s : State) : (s.goto p).status = s.status := rfl
@[simp] theorem State.goto_result (p : Pos) (s : State) : (s.goto p).result = s.result := rfl
@[simp] theorem State.goto_errKind (p : Pos) (s : State) : (s.goto p).errKind = s.errKind := rfl
@[simp] theorem State.goto_wlen (p : Pos) (s : State) : (s.goto p).wlen = s.wlen := rfl
@[simp] theorem State.goto_rlen (p : Pos) (s : State) : (s.goto p).rlen = s.rlen := rfl
@[simp] theorem State.goto_wbuf (p : Pos) (s : State) : (s.goto p).wbuf = s.wbuf := rfl
@[simp] theorem State.goto_rbuf (p : Pos) (s : State) : (s.goto p).rbuf = s.rbuf := rfl
@[simp] theorem State.goto_drvScl (p : Pos) (s : State) : (s.goto p).drvScl = s.drvScl := rfl
@[simp] theorem State.goto_drvSda (p : Pos) (s : State) : (s.goto p).drvSda = s.drvSda := rfl
@[simp] theorem State.goto_adr (p : Pos) (s : State) : (s.goto p).adr = s.adr := rfl
@[simp] theorem State.goto_wl (p : Pos) (s : State) : (s.goto p).wl = s.wl := rfl
@[simp] theorem State.goto_rl (p : Pos) (s : State) : (s.goto p).rl = s.rl := rfl
@[simp] theorem State.goto_locals (p : Pos) (s : State) : (s.goto p).locals = s.locals := rfl
@[simp] theorem State.goto_pc (p : Pos) (s : State) : (s.goto p).pc = ⟨p, none⟩ :: s.pc.tail := rfl
@[simp] theorem State.goto_trace (p : Pos) (s : State) : (s.goto p).trace = s.trace := rfl
@[simp] theorem State.goto_responses (p : Pos) (s : State) : (s.goto p).responses = s.responses := rfl
@[simp] theorem State.goto_answers (p : Pos) (s : State) : (s.goto p).answers = s.answers := rfl
@[simp] theorem State.goto_requests (p : Pos) (s : State) : (s.goto p).requests = s.requests := rfl
@[simp] theorem State.goto_freeIdx (p : Pos) (s : State) : (s.goto p).freeIdx = s.freeIdx := rfl

/-! ### `call` -/

@[simp] theorem State.call_freq (i : Instr) (s : State) : (s.call i).freq = s.freq := rfl
@[simp] theorem State.call_halfUs (i : Instr) (s : State) : (s.call i).halfUs = s.halfUs := rfl
@[simp] theorem State.call_cmd (i : Instr) (s : State) : (s.call i).cmd = s.cmd := rfl
@[simp] theorem State.call_status (i : Instr) (s : State) : (s.call i).status = s.status := rfl
@[simp] theorem State.call_result (i : Instr) (s : State) : (s.call i).result = s.result := rfl
@[simp] theorem State.call_errKind (i : Instr) (s : State) : (s.call i).errKind = s.errKind := rfl
@[simp] theorem State.call_wlen (i : Instr) (s : State) : (s.call i).wlen = s.wlen := rfl
@[simp] theorem State.call_rlen (i : Instr) (s : State) : (s.call i).rlen = s.rlen := rfl
@[simp] theorem State.call_wbuf (i : Instr) (s : State) : (s.call i).wbuf = s.wbuf := rfl
@[simp] theorem State.call_rbuf (i : Instr) (s : State) : (s.call i).rbuf = s.rbuf := rfl
@[simp] theorem State.call_drvScl (i : Instr) (s : State) : (s.call i).drvScl = s.drvScl := rfl
@[simp] theorem State.call_drvSda (i : Instr) (s : State) : (s.call i).drvSda = s.drvSda := rfl
@[simp] theorem State.call_adr (i : Instr) (s : State) : (s.call i).adr = s.adr := rfl
@[simp] theorem State.call_wl (i : Instr) (s : State) : (s.call i).wl = s.wl := rfl
@[simp] theorem State.call_rl (i : Instr) (s : State) : (s.call i).rl = s.rl := rfl
@[simp] theorem State.call_locals (i : Instr) (s : State) : (s.call i).locals = s.locals.latch i := rfl
@[simp] theorem State.call_pc (i : Instr) (s : State) : (s.call i).pc = ⟨entryOf i, none⟩ :: s.pc := rfl
@[simp] theorem State.call_trace (i : Instr) (s : State) : (s.call i).trace = s.trace := rfl
@[simp] theorem State.call_responses (i : Instr) (s : State) : (s.call i).responses = s.responses := rfl
@[simp] theorem State.call_answers (i : Instr) (s : State) : (s.call i).answers = s.answers := rfl
@[simp] theorem State.call_requests (i : Instr) (s : State) : (s.call i).requests = s.requests := rfl
@[simp] theorem State.call_freeIdx (i : Instr) (s : State) : (s.call i).freeIdx = s.freeIdx := rfl

/-! ### `record` -/

@[simp] theorem State.record_freq (e : Event) (s : State) : (s.record e).freq = s.freq := rfl
@[simp] theorem State.record_halfUs (e : Event) (s : State) : (s.record e).halfUs = s.halfUs := rfl
@[simp] theorem State.record_cmd (e : Event) (s : State) : (s.record e).cmd = s.cmd := rfl
@[simp] theorem State.record_status (e : Event) (s : State) : (s.record e).status = s.status := rfl
@[simp] theorem State.record_result (e : Event) (s : State) : (s.record e).result = s.result := rfl
@[simp] theorem State.record_errKind (e : Event) (s : State) : (s.record e).errKind = s.errKind := rfl
@[simp] theorem State.record_wlen (e : Event) (s : State) : (s.record e).wlen = s.wlen := rfl
@[simp] theorem State.record_rlen (e : Event) (s : State) : (s.record e).rlen = s.rlen := rfl
@[simp] theorem State.record_wbuf (e : Event) (s : State) : (s.record e).wbuf = s.wbuf := rfl
@[simp] theorem State.record_rbuf (e : Event) (s : State) : (s.record e).rbuf = s.rbuf := rfl
@[simp] theorem State.record_drvScl (e : Event) (s : State) : (s.record e).drvScl = s.drvScl := rfl
@[simp] theorem State.record_drvSda (e : Event) (s : State) : (s.record e).drvSda = s.drvSda := rfl
@[simp] theorem State.record_adr (e : Event) (s : State) : (s.record e).adr = s.adr := rfl
@[simp] theorem State.record_wl (e : Event) (s : State) : (s.record e).wl = s.wl := rfl
@[simp] theorem State.record_rl (e : Event) (s : State) : (s.record e).rl = s.rl := rfl
@[simp] theorem State.record_locals (e : Event) (s : State) : (s.record e).locals = s.locals := rfl
@[simp] theorem State.record_pc (e : Event) (s : State) : (s.record e).pc = s.pc := rfl
@[simp] theorem State.record_trace (e : Event) (s : State) : (s.record e).trace = e :: s.trace := rfl
@[simp] theorem State.record_responses (e : Event) (s : State) : (s.record e).responses = s.responses := rfl
@[simp] theorem State.record_answers (e : Event) (s : State) : (s.record e).answers = s.answers := rfl
@[simp] theorem State.record_requests (e : Event) (s : State) : (s.record e).requests = s.requests := rfl
@[simp] theorem State.record_freeIdx (e : Event) (s : State) : (s.record e).freeIdx = s.freeIdx := rfl

/-! ### `respond` -/

@[simp] theorem State.respond_freq (r : Response) (s : State) : (s.respond r).freq = s.freq := rfl
@[simp] theorem State.respond_halfUs (r : Response) (s : State) : (s.respond r).halfUs = s.halfUs := rfl
@[simp] theorem State.respond_cmd (r : Response) (s : State) : (s.respond r).cmd = s.cmd := rfl
@[simp] theorem State.respond_status (r : Response) (s : State) : (s.respond r).status = s.status := rfl
@[simp] theorem State.respond_result (r : Response) (s : State) : (s.respond r).result = s.result := rfl
@[simp] theorem State.respond_errKind (r : Response) (s : State) : (s.respond r).errKind = s.errKind := rfl
@[simp] theorem State.respond_wlen (r : Response) (s : State) : (s.respond r).wlen = s.wlen := rfl
@[simp] theorem State.respond_rlen (r : Response) (s : State) : (s.respond r).rlen = s.rlen := rfl
@[simp] theorem State.respond_wbuf (r : Response) (s : State) : (s.respond r).wbuf = s.wbuf := rfl
@[simp] theorem State.respond_rbuf (r : Response) (s : State) : (s.respond r).rbuf = s.rbuf := rfl
@[simp] theorem State.respond_drvScl (r : Response) (s : State) : (s.respond r).drvScl = s.drvScl := rfl
@[simp] theorem State.respond_drvSda (r : Response) (s : State) : (s.respond r).drvSda = s.drvSda := rfl
@[simp] theorem State.respond_adr (r : Response) (s : State) : (s.respond r).adr = s.adr := rfl
@[simp] theorem State.respond_wl (r : Response) (s : State) : (s.respond r).wl = s.wl := rfl
@[simp] theorem State.respond_rl (r : Response) (s : State) : (s.respond r).rl = s.rl := rfl
@[simp] theorem State.respond_locals (r : Response) (s : State) : (s.respond r).locals = s.locals := rfl
@[simp] theorem State.respond_pc (r : Response) (s : State) : (s.respond r).pc = s.pc := rfl
@[simp] theorem State.respond_trace (r : Response) (s : State) : (s.respond r).trace = s.trace := rfl
@[simp] theorem State.respond_responses (r : Response) (s : State) : (s.respond r).responses = r :: s.responses := rfl
@[simp] theorem State.respond_answers (r : Response) (s : State) : (s.respond r).answers = s.answers := rfl
@[simp] theorem State.respond_requests (r : Response) (s : State) : (s.respond r).requests = s.requests := rfl
@[simp] theorem State.respond_freeIdx (r : Response) (s : State) : (s.respond r).freeIdx = s.freeIdx := rfl

/-! ### `delay` -/

@[simp] theorem State.delay_freq (us : Nat) (s : State) : (s.delay us).freq = s.freq := rfl
@[simp] theorem State.delay_halfUs (us : Nat) (s : State) : (s.delay us).halfUs = s.halfUs := rfl
@[simp] theorem State.delay_cmd (us : Nat) (s : State) : (s.delay us).cmd = s.cmd := rfl
@[simp] theorem State.delay_status (us : Nat) (s : State) : (s.delay us).status = s.status := rfl
@[simp] theorem State.delay_result (us : Nat) (s : State) : (s.delay us).result = s.result := rfl
@[simp] theorem State.delay_errKind (us : Nat) (s : State) : (s.delay us).errKind = s.errKind := rfl
@[simp] theorem State.delay_wlen (us : Nat) (s : State) : (s.delay us).wlen = s.wlen := rfl
@[simp] theorem State.delay_rlen (us : Nat) (s : State) : (s.delay us).rlen = s.rlen := rfl
@[simp] theorem State.delay_wbuf (us : Nat) (s : State) : (s.delay us).wbuf = s.wbuf := rfl
@[simp] theorem State.delay_rbuf (us : Nat) (s : State) : (s.delay us).rbuf = s.rbuf := rfl
@[simp] theorem State.delay_drvScl (us : Nat) (s : State) : (s.delay us).drvScl = s.drvScl := rfl
@[simp] theorem State.delay_drvSda (us : Nat) (s : State) : (s.delay us).drvSda = s.drvSda := rfl
@[simp] theorem State.delay_adr (us : Nat) (s : State) : (s.delay us).adr = s.adr := rfl
@[simp] theorem State.delay_wl (us : Nat) (s : State) : (s.delay us).wl = s.wl := rfl
@[simp] theorem State.delay_rl (us : Nat) (s : State) : (s.delay us).rl = s.rl := rfl
@[simp] theorem State.delay_locals (us : Nat) (s : State) : (s.delay us).locals = s.locals := rfl
@[simp] theorem State.delay_pc (us : Nat) (s : State) : (s.delay us).pc = s.pc := rfl
@[simp] theorem State.delay_trace (us : Nat) (s : State) : (s.delay us).trace = .delay us :: s.trace := rfl
@[simp] theorem State.delay_responses (us : Nat) (s : State) : (s.delay us).responses = s.responses := rfl
@[simp] theorem State.delay_answers (us : Nat) (s : State) : (s.delay us).answers = s.answers := rfl
@[simp] theorem State.delay_requests (us : Nat) (s : State) : (s.delay us).requests = s.requests := rfl
@[simp] theorem State.delay_freeIdx (us : Nat) (s : State) : (s.delay us).freeIdx = s.freeIdx := rfl

/-! ### `delayHalf` -/

@[simp] theorem State.delayHalf_freq (s : State) : (s.delayHalf).freq = s.freq := rfl
@[simp] theorem State.delayHalf_halfUs (s : State) : (s.delayHalf).halfUs = s.halfUs := rfl
@[simp] theorem State.delayHalf_cmd (s : State) : (s.delayHalf).cmd = s.cmd := rfl
@[simp] theorem State.delayHalf_status (s : State) : (s.delayHalf).status = s.status := rfl
@[simp] theorem State.delayHalf_result (s : State) : (s.delayHalf).result = s.result := rfl
@[simp] theorem State.delayHalf_errKind (s : State) : (s.delayHalf).errKind = s.errKind := rfl
@[simp] theorem State.delayHalf_wlen (s : State) : (s.delayHalf).wlen = s.wlen := rfl
@[simp] theorem State.delayHalf_rlen (s : State) : (s.delayHalf).rlen = s.rlen := rfl
@[simp] theorem State.delayHalf_wbuf (s : State) : (s.delayHalf).wbuf = s.wbuf := rfl
@[simp] theorem State.delayHalf_rbuf (s : State) : (s.delayHalf).rbuf = s.rbuf := rfl
@[simp] theorem State.delayHalf_drvScl (s : State) : (s.delayHalf).drvScl = s.drvScl := rfl
@[simp] theorem State.delayHalf_drvSda (s : State) : (s.delayHalf).drvSda = s.drvSda := rfl
@[simp] theorem State.delayHalf_adr (s : State) : (s.delayHalf).adr = s.adr := rfl
@[simp] theorem State.delayHalf_wl (s : State) : (s.delayHalf).wl = s.wl := rfl
@[simp] theorem State.delayHalf_rl (s : State) : (s.delayHalf).rl = s.rl := rfl
@[simp] theorem State.delayHalf_locals (s : State) : (s.delayHalf).locals = s.locals := rfl
@[simp] theorem State.delayHalf_pc (s : State) : (s.delayHalf).pc = s.pc := rfl
@[simp] theorem State.delayHalf_trace (s : State) : (s.delayHalf).trace = .delay s.halfUs.toNat :: s.trace := rfl
@[simp] theorem State.delayHalf_responses (s : State) : (s.delayHalf).responses = s.responses := rfl
@[simp] theorem State.delayHalf_answers (s : State) : (s.delayHalf).answers = s.answers := rfl
@[simp] theorem State.delayHalf_requests (s : State) : (s.delayHalf).requests = s.requests := rfl
@[simp] theorem State.delayHalf_freeIdx (s : State) : (s.delayHalf).freeIdx = s.freeIdx := rfl

/-! ### `setLocals` -/

@[simp] theorem State.setLocals_freq (r : Locals) (s : State) : (s.setLocals r).freq = s.freq := rfl
@[simp] theorem State.setLocals_halfUs (r : Locals) (s : State) : (s.setLocals r).halfUs = s.halfUs := rfl
@[simp] theorem State.setLocals_cmd (r : Locals) (s : State) : (s.setLocals r).cmd = s.cmd := rfl
@[simp] theorem State.setLocals_status (r : Locals) (s : State) : (s.setLocals r).status = s.status := rfl
@[simp] theorem State.setLocals_result (r : Locals) (s : State) : (s.setLocals r).result = s.result := rfl
@[simp] theorem State.setLocals_errKind (r : Locals) (s : State) : (s.setLocals r).errKind = s.errKind := rfl
@[simp] theorem State.setLocals_wlen (r : Locals) (s : State) : (s.setLocals r).wlen = s.wlen := rfl
@[simp] theorem State.setLocals_rlen (r : Locals) (s : State) : (s.setLocals r).rlen = s.rlen := rfl
@[simp] theorem State.setLocals_wbuf (r : Locals) (s : State) : (s.setLocals r).wbuf = s.wbuf := rfl
@[simp] theorem State.setLocals_rbuf (r : Locals) (s : State) : (s.setLocals r).rbuf = s.rbuf := rfl
@[simp] theorem State.setLocals_drvScl (r : Locals) (s : State) : (s.setLocals r).drvScl = s.drvScl := rfl
@[simp] theorem State.setLocals_drvSda (r : Locals) (s : State) : (s.setLocals r).drvSda = s.drvSda := rfl
@[simp] theorem State.setLocals_adr (r : Locals) (s : State) : (s.setLocals r).adr = s.adr := rfl
@[simp] theorem State.setLocals_wl (r : Locals) (s : State) : (s.setLocals r).wl = s.wl := rfl
@[simp] theorem State.setLocals_rl (r : Locals) (s : State) : (s.setLocals r).rl = s.rl := rfl
@[simp] theorem State.setLocals_locals (r : Locals) (s : State) : (s.setLocals r).locals = r := rfl
@[simp] theorem State.setLocals_pc (r : Locals) (s : State) : (s.setLocals r).pc = s.pc := rfl
@[simp] theorem State.setLocals_trace (r : Locals) (s : State) : (s.setLocals r).trace = s.trace := rfl
@[simp] theorem State.setLocals_responses (r : Locals) (s : State) : (s.setLocals r).responses = s.responses := rfl
@[simp] theorem State.setLocals_answers (r : Locals) (s : State) : (s.setLocals r).answers = s.answers := rfl
@[simp] theorem State.setLocals_requests (r : Locals) (s : State) : (s.setLocals r).requests = s.requests := rfl
@[simp] theorem State.setLocals_freeIdx (r : Locals) (s : State) : (s.setLocals r).freeIdx = s.freeIdx := rfl

/-! ### `setBusy` -/

@[simp] theorem State.setBusy_freq (b : Bool) (s : State) : (s.setBusy b).freq = s.freq := rfl
@[simp] theorem State.setBusy_halfUs (b : Bool) (s : State) : (s.setBusy b).halfUs = s.halfUs := rfl
@[simp] theorem State.setBusy_cmd (b : Bool) (s : State) : (s.setBusy b).cmd = s.cmd := rfl
@[simp] theorem State.setBusy_status (b : Bool) (s : State) : (s.setBusy b).status = statusWord s.configured b := rfl
@[simp] theorem State.setBusy_result (b : Bool) (s : State) : (s.setBusy b).result = s.result := rfl
@[simp] theorem State.setBusy_errKind (b : Bool) (s : State) : (s.setBusy b).errKind = s.errKind := rfl
@[simp] theorem State.setBusy_wlen (b : Bool) (s : State) : (s.setBusy b).wlen = s.wlen := rfl
@[simp] theorem State.setBusy_rlen (b : Bool) (s : State) : (s.setBusy b).rlen = s.rlen := rfl
@[simp] theorem State.setBusy_wbuf (b : Bool) (s : State) : (s.setBusy b).wbuf = s.wbuf := rfl
@[simp] theorem State.setBusy_rbuf (b : Bool) (s : State) : (s.setBusy b).rbuf = s.rbuf := rfl
@[simp] theorem State.setBusy_drvScl (b : Bool) (s : State) : (s.setBusy b).drvScl = s.drvScl := rfl
@[simp] theorem State.setBusy_drvSda (b : Bool) (s : State) : (s.setBusy b).drvSda = s.drvSda := rfl
@[simp] theorem State.setBusy_adr (b : Bool) (s : State) : (s.setBusy b).adr = s.adr := rfl
@[simp] theorem State.setBusy_wl (b : Bool) (s : State) : (s.setBusy b).wl = s.wl := rfl
@[simp] theorem State.setBusy_rl (b : Bool) (s : State) : (s.setBusy b).rl = s.rl := rfl
@[simp] theorem State.setBusy_locals (b : Bool) (s : State) : (s.setBusy b).locals = s.locals := rfl
@[simp] theorem State.setBusy_pc (b : Bool) (s : State) : (s.setBusy b).pc = s.pc := rfl
@[simp] theorem State.setBusy_trace (b : Bool) (s : State) : (s.setBusy b).trace = s.trace := rfl
@[simp] theorem State.setBusy_responses (b : Bool) (s : State) : (s.setBusy b).responses = s.responses := rfl
@[simp] theorem State.setBusy_answers (b : Bool) (s : State) : (s.setBusy b).answers = s.answers := rfl
@[simp] theorem State.setBusy_requests (b : Bool) (s : State) : (s.setBusy b).requests = s.requests := rfl
@[simp] theorem State.setBusy_freeIdx (b : Bool) (s : State) : (s.setBusy b).freeIdx = s.freeIdx := rfl

/-! ### `setConfigured` -/

@[simp] theorem State.setConfigured_freq (b : Bool) (s : State) : (s.setConfigured b).freq = s.freq := rfl
@[simp] theorem State.setConfigured_halfUs (b : Bool) (s : State) : (s.setConfigured b).halfUs = s.halfUs := rfl
@[simp] theorem State.setConfigured_cmd (b : Bool) (s : State) : (s.setConfigured b).cmd = s.cmd := rfl
@[simp] theorem State.setConfigured_status (b : Bool) (s : State) : (s.setConfigured b).status = statusWord b s.busy := rfl
@[simp] theorem State.setConfigured_result (b : Bool) (s : State) : (s.setConfigured b).result = s.result := rfl
@[simp] theorem State.setConfigured_errKind (b : Bool) (s : State) : (s.setConfigured b).errKind = s.errKind := rfl
@[simp] theorem State.setConfigured_wlen (b : Bool) (s : State) : (s.setConfigured b).wlen = s.wlen := rfl
@[simp] theorem State.setConfigured_rlen (b : Bool) (s : State) : (s.setConfigured b).rlen = s.rlen := rfl
@[simp] theorem State.setConfigured_wbuf (b : Bool) (s : State) : (s.setConfigured b).wbuf = s.wbuf := rfl
@[simp] theorem State.setConfigured_rbuf (b : Bool) (s : State) : (s.setConfigured b).rbuf = s.rbuf := rfl
@[simp] theorem State.setConfigured_drvScl (b : Bool) (s : State) : (s.setConfigured b).drvScl = s.drvScl := rfl
@[simp] theorem State.setConfigured_drvSda (b : Bool) (s : State) : (s.setConfigured b).drvSda = s.drvSda := rfl
@[simp] theorem State.setConfigured_adr (b : Bool) (s : State) : (s.setConfigured b).adr = s.adr := rfl
@[simp] theorem State.setConfigured_wl (b : Bool) (s : State) : (s.setConfigured b).wl = s.wl := rfl
@[simp] theorem State.setConfigured_rl (b : Bool) (s : State) : (s.setConfigured b).rl = s.rl := rfl
@[simp] theorem State.setConfigured_locals (b : Bool) (s : State) : (s.setConfigured b).locals = s.locals := rfl
@[simp] theorem State.setConfigured_pc (b : Bool) (s : State) : (s.setConfigured b).pc = s.pc := rfl
@[simp] theorem State.setConfigured_trace (b : Bool) (s : State) : (s.setConfigured b).trace = s.trace := rfl
@[simp] theorem State.setConfigured_responses (b : Bool) (s : State) : (s.setConfigured b).responses = s.responses := rfl
@[simp] theorem State.setConfigured_answers (b : Bool) (s : State) : (s.setConfigured b).answers = s.answers := rfl
@[simp] theorem State.setConfigured_requests (b : Bool) (s : State) : (s.setConfigured b).requests = s.requests := rfl
@[simp] theorem State.setConfigured_freeIdx (b : Bool) (s : State) : (s.setConfigured b).freeIdx = s.freeIdx := rfl

/-! ### `popRequest` -/

@[simp] theorem State.popRequest_freq (s : State) : (s.popRequest).freq = s.freq := rfl
@[simp] theorem State.popRequest_halfUs (s : State) : (s.popRequest).halfUs = s.halfUs := rfl
@[simp] theorem State.popRequest_cmd (s : State) : (s.popRequest).cmd = s.cmd := rfl
@[simp] theorem State.popRequest_status (s : State) : (s.popRequest).status = s.status := rfl
@[simp] theorem State.popRequest_result (s : State) : (s.popRequest).result = s.result := rfl
@[simp] theorem State.popRequest_errKind (s : State) : (s.popRequest).errKind = s.errKind := rfl
@[simp] theorem State.popRequest_wlen (s : State) : (s.popRequest).wlen = s.wlen := rfl
@[simp] theorem State.popRequest_rlen (s : State) : (s.popRequest).rlen = s.rlen := rfl
@[simp] theorem State.popRequest_wbuf (s : State) : (s.popRequest).wbuf = s.wbuf := rfl
@[simp] theorem State.popRequest_rbuf (s : State) : (s.popRequest).rbuf = s.rbuf := rfl
@[simp] theorem State.popRequest_drvScl (s : State) : (s.popRequest).drvScl = s.drvScl := rfl
@[simp] theorem State.popRequest_drvSda (s : State) : (s.popRequest).drvSda = s.drvSda := rfl
@[simp] theorem State.popRequest_adr (s : State) : (s.popRequest).adr = s.adr := rfl
@[simp] theorem State.popRequest_wl (s : State) : (s.popRequest).wl = s.wl := rfl
@[simp] theorem State.popRequest_rl (s : State) : (s.popRequest).rl = s.rl := rfl
@[simp] theorem State.popRequest_locals (s : State) : (s.popRequest).locals = s.locals := rfl
@[simp] theorem State.popRequest_pc (s : State) : (s.popRequest).pc = s.pc := rfl
@[simp] theorem State.popRequest_trace (s : State) : (s.popRequest).trace = s.trace := rfl
@[simp] theorem State.popRequest_responses (s : State) : (s.popRequest).responses = s.responses := rfl
@[simp] theorem State.popRequest_answers (s : State) : (s.popRequest).answers = s.answers := rfl
@[simp] theorem State.popRequest_requests (s : State) : (s.popRequest).requests = s.requests.tail := rfl
@[simp] theorem State.popRequest_freeIdx (s : State) : (s.popRequest).freeIdx = s.freeIdx := rfl

/-! ### `toIdle` -/

@[simp] theorem State.toIdle_freq (s : State) : (s.toIdle).freq = s.freq := rfl
@[simp] theorem State.toIdle_halfUs (s : State) : (s.toIdle).halfUs = s.halfUs := rfl
@[simp] theorem State.toIdle_cmd (s : State) : (s.toIdle).cmd = s.cmd := rfl
@[simp] theorem State.toIdle_status (s : State) : (s.toIdle).status = statusWord s.configured false := rfl
@[simp] theorem State.toIdle_result (s : State) : (s.toIdle).result = s.result := rfl
@[simp] theorem State.toIdle_errKind (s : State) : (s.toIdle).errKind = s.errKind := rfl
@[simp] theorem State.toIdle_wlen (s : State) : (s.toIdle).wlen = s.wlen := rfl
@[simp] theorem State.toIdle_rlen (s : State) : (s.toIdle).rlen = s.rlen := rfl
@[simp] theorem State.toIdle_wbuf (s : State) : (s.toIdle).wbuf = s.wbuf := rfl
@[simp] theorem State.toIdle_rbuf (s : State) : (s.toIdle).rbuf = s.rbuf := rfl
@[simp] theorem State.toIdle_drvScl (s : State) : (s.toIdle).drvScl = s.drvScl := rfl
@[simp] theorem State.toIdle_drvSda (s : State) : (s.toIdle).drvSda = s.drvSda := rfl
@[simp] theorem State.toIdle_adr (s : State) : (s.toIdle).adr = none := rfl
@[simp] theorem State.toIdle_wl (s : State) : (s.toIdle).wl = none := rfl
@[simp] theorem State.toIdle_rl (s : State) : (s.toIdle).rl = none := rfl
@[simp] theorem State.toIdle_locals (s : State) : (s.toIdle).locals = Locals.dead := rfl
@[simp] theorem State.toIdle_pc (s : State) : (s.toIdle).pc = [] := rfl
@[simp] theorem State.toIdle_trace (s : State) : (s.toIdle).trace = s.trace := rfl
@[simp] theorem State.toIdle_responses (s : State) : (s.toIdle).responses = s.responses := rfl
@[simp] theorem State.toIdle_answers (s : State) : (s.toIdle).answers = s.answers := rfl
@[simp] theorem State.toIdle_requests (s : State) : (s.toIdle).requests = s.requests := rfl
@[simp] theorem State.toIdle_freeIdx (s : State) : (s.toIdle).freeIdx = s.freeIdx := rfl

/-! ### `raise` -/

@[simp] theorem State.raise_freq (c : Cause) (s : State) : (s.raise c).freq = s.freq := rfl
@[simp] theorem State.raise_halfUs (c : Cause) (s : State) : (s.raise c).halfUs = s.halfUs := rfl
@[simp] theorem State.raise_cmd (c : Cause) (s : State) : (s.raise c).cmd = s.cmd := rfl
@[simp] theorem State.raise_status (c : Cause) (s : State) : (s.raise c).status = statusWord s.configured false := rfl
@[simp] theorem State.raise_result (c : Cause) (s : State) : (s.raise c).result = c.code := rfl
@[simp] theorem State.raise_errKind (c : Cause) (s : State) : (s.raise c).errKind = c.errKind s.errKind := rfl
@[simp] theorem State.raise_wlen (c : Cause) (s : State) : (s.raise c).wlen = s.wlen := rfl
@[simp] theorem State.raise_rlen (c : Cause) (s : State) : (s.raise c).rlen = s.rlen := rfl
@[simp] theorem State.raise_wbuf (c : Cause) (s : State) : (s.raise c).wbuf = s.wbuf := rfl
@[simp] theorem State.raise_rbuf (c : Cause) (s : State) : (s.raise c).rbuf = s.rbuf := rfl
@[simp] theorem State.raise_drvScl (c : Cause) (s : State) : (s.raise c).drvScl = s.drvScl := rfl
@[simp] theorem State.raise_drvSda (c : Cause) (s : State) : (s.raise c).drvSda = s.drvSda := rfl
@[simp] theorem State.raise_adr (c : Cause) (s : State) : (s.raise c).adr = none := rfl
@[simp] theorem State.raise_wl (c : Cause) (s : State) : (s.raise c).wl = none := rfl
@[simp] theorem State.raise_rl (c : Cause) (s : State) : (s.raise c).rl = none := rfl
@[simp] theorem State.raise_locals (c : Cause) (s : State) : (s.raise c).locals = Locals.dead := rfl
@[simp] theorem State.raise_pc (c : Cause) (s : State) : (s.raise c).pc = [] := rfl
@[simp] theorem State.raise_trace (c : Cause) (s : State) : (s.raise c).trace = s.trace := rfl
@[simp] theorem State.raise_responses (c : Cause) (s : State) : (s.raise c).responses = c.response :: s.responses := rfl
@[simp] theorem State.raise_answers (c : Cause) (s : State) : (s.raise c).answers = s.answers := rfl
@[simp] theorem State.raise_requests (c : Cause) (s : State) : (s.raise c).requests = s.requests := rfl
@[simp] theorem State.raise_freeIdx (c : Cause) (s : State) : (s.raise c).freeIdx = s.freeIdx := rfl

/-! ### `endCommand` -/

@[simp] theorem State.endCommand_freq (s : State) : (s.endCommand).freq = s.freq := rfl
@[simp] theorem State.endCommand_halfUs (s : State) : (s.endCommand).halfUs = s.halfUs := rfl
@[simp] theorem State.endCommand_cmd (s : State) : (s.endCommand).cmd = s.cmd := rfl
@[simp] theorem State.endCommand_status (s : State) : (s.endCommand).status = statusWord s.configured false := rfl
@[simp] theorem State.endCommand_result (s : State) : (s.endCommand).result = resultOk := rfl
@[simp] theorem State.endCommand_errKind (s : State) : (s.endCommand).errKind = s.errKind := rfl
@[simp] theorem State.endCommand_wlen (s : State) : (s.endCommand).wlen = s.wlen := rfl
@[simp] theorem State.endCommand_rlen (s : State) : (s.endCommand).rlen = s.rlen := rfl
@[simp] theorem State.endCommand_wbuf (s : State) : (s.endCommand).wbuf = s.wbuf := rfl
@[simp] theorem State.endCommand_rbuf (s : State) : (s.endCommand).rbuf = s.rbuf := rfl
@[simp] theorem State.endCommand_drvScl (s : State) : (s.endCommand).drvScl = s.drvScl := rfl
@[simp] theorem State.endCommand_drvSda (s : State) : (s.endCommand).drvSda = s.drvSda := rfl
@[simp] theorem State.endCommand_adr (s : State) : (s.endCommand).adr = none := rfl
@[simp] theorem State.endCommand_wl (s : State) : (s.endCommand).wl = none := rfl
@[simp] theorem State.endCommand_rl (s : State) : (s.endCommand).rl = none := rfl
@[simp] theorem State.endCommand_locals (s : State) : (s.endCommand).locals = Locals.dead := rfl
@[simp] theorem State.endCommand_pc (s : State) : (s.endCommand).pc = [] := rfl
@[simp] theorem State.endCommand_trace (s : State) : (s.endCommand).trace = s.trace := rfl
@[simp] theorem State.endCommand_responses (s : State) : (s.endCommand).responses = .ok :: s.responses := rfl
@[simp] theorem State.endCommand_answers (s : State) : (s.endCommand).answers = s.answers := rfl
@[simp] theorem State.endCommand_requests (s : State) : (s.endCommand).requests = s.requests := rfl
@[simp] theorem State.endCommand_freeIdx (s : State) : (s.endCommand).freeIdx = s.freeIdx := rfl

/-! ### `setDrv` -/

@[simp] theorem State.setDrv_freq (L : Line) (d : Drv) (s : State) : (s.setDrv L d).freq = s.freq := rfl
@[simp] theorem State.setDrv_halfUs (L : Line) (d : Drv) (s : State) : (s.setDrv L d).halfUs = s.halfUs := rfl
@[simp] theorem State.setDrv_cmd (L : Line) (d : Drv) (s : State) : (s.setDrv L d).cmd = s.cmd := rfl
@[simp] theorem State.setDrv_status (L : Line) (d : Drv) (s : State) : (s.setDrv L d).status = s.status := rfl
@[simp] theorem State.setDrv_result (L : Line) (d : Drv) (s : State) : (s.setDrv L d).result = s.result := rfl
@[simp] theorem State.setDrv_errKind (L : Line) (d : Drv) (s : State) : (s.setDrv L d).errKind = s.errKind := rfl
@[simp] theorem State.setDrv_wlen (L : Line) (d : Drv) (s : State) : (s.setDrv L d).wlen = s.wlen := rfl
@[simp] theorem State.setDrv_rlen (L : Line) (d : Drv) (s : State) : (s.setDrv L d).rlen = s.rlen := rfl
@[simp] theorem State.setDrv_wbuf (L : Line) (d : Drv) (s : State) : (s.setDrv L d).wbuf = s.wbuf := rfl
@[simp] theorem State.setDrv_rbuf (L : Line) (d : Drv) (s : State) : (s.setDrv L d).rbuf = s.rbuf := rfl
@[simp] theorem State.setDrv_adr (L : Line) (d : Drv) (s : State) : (s.setDrv L d).adr = s.adr := rfl
@[simp] theorem State.setDrv_wl (L : Line) (d : Drv) (s : State) : (s.setDrv L d).wl = s.wl := rfl
@[simp] theorem State.setDrv_rl (L : Line) (d : Drv) (s : State) : (s.setDrv L d).rl = s.rl := rfl
@[simp] theorem State.setDrv_locals (L : Line) (d : Drv) (s : State) : (s.setDrv L d).locals = s.locals := rfl
@[simp] theorem State.setDrv_pc (L : Line) (d : Drv) (s : State) : (s.setDrv L d).pc = s.pc := rfl
@[simp] theorem State.setDrv_trace (L : Line) (d : Drv) (s : State) : (s.setDrv L d).trace = s.trace := rfl
@[simp] theorem State.setDrv_responses (L : Line) (d : Drv) (s : State) : (s.setDrv L d).responses = s.responses := rfl
@[simp] theorem State.setDrv_answers (L : Line) (d : Drv) (s : State) : (s.setDrv L d).answers = s.answers := rfl
@[simp] theorem State.setDrv_requests (L : Line) (d : Drv) (s : State) : (s.setDrv L d).requests = s.requests := rfl
@[simp] theorem State.setDrv_freeIdx (L : Line) (d : Drv) (s : State) : (s.setDrv L d).freeIdx = s.freeIdx := rfl

/-! ### `dropAnswer` -/

@[simp] theorem State.dropAnswer_freq (s : State) : (s.dropAnswer).freq = s.freq := rfl
@[simp] theorem State.dropAnswer_halfUs (s : State) : (s.dropAnswer).halfUs = s.halfUs := rfl
@[simp] theorem State.dropAnswer_cmd (s : State) : (s.dropAnswer).cmd = s.cmd := rfl
@[simp] theorem State.dropAnswer_status (s : State) : (s.dropAnswer).status = s.status := rfl
@[simp] theorem State.dropAnswer_result (s : State) : (s.dropAnswer).result = s.result := rfl
@[simp] theorem State.dropAnswer_errKind (s : State) : (s.dropAnswer).errKind = s.errKind := rfl
@[simp] theorem State.dropAnswer_wlen (s : State) : (s.dropAnswer).wlen = s.wlen := rfl
@[simp] theorem State.dropAnswer_rlen (s : State) : (s.dropAnswer).rlen = s.rlen := rfl
@[simp] theorem State.dropAnswer_wbuf (s : State) : (s.dropAnswer).wbuf = s.wbuf := rfl
@[simp] theorem State.dropAnswer_rbuf (s : State) : (s.dropAnswer).rbuf = s.rbuf := rfl
@[simp] theorem State.dropAnswer_drvScl (s : State) : (s.dropAnswer).drvScl = s.drvScl := rfl
@[simp] theorem State.dropAnswer_drvSda (s : State) : (s.dropAnswer).drvSda = s.drvSda := rfl
@[simp] theorem State.dropAnswer_adr (s : State) : (s.dropAnswer).adr = s.adr := rfl
@[simp] theorem State.dropAnswer_wl (s : State) : (s.dropAnswer).wl = s.wl := rfl
@[simp] theorem State.dropAnswer_rl (s : State) : (s.dropAnswer).rl = s.rl := rfl
@[simp] theorem State.dropAnswer_locals (s : State) : (s.dropAnswer).locals = s.locals := rfl
@[simp] theorem State.dropAnswer_pc (s : State) : (s.dropAnswer).pc = s.pc := rfl
@[simp] theorem State.dropAnswer_trace (s : State) : (s.dropAnswer).trace = s.trace := rfl
@[simp] theorem State.dropAnswer_responses (s : State) : (s.dropAnswer).responses = s.responses := rfl
@[simp] theorem State.dropAnswer_answers (s : State) : (s.dropAnswer).answers = s.answers.tail := rfl
@[simp] theorem State.dropAnswer_requests (s : State) : (s.dropAnswer).requests = s.requests := rfl

/-! ### `tick` -/

@[simp] theorem State.tick_freq (s : State) : (s.tick).freq = s.freq := rfl
@[simp] theorem State.tick_halfUs (s : State) : (s.tick).halfUs = s.halfUs := rfl
@[simp] theorem State.tick_cmd (s : State) : (s.tick).cmd = s.cmd := rfl
@[simp] theorem State.tick_status (s : State) : (s.tick).status = s.status := rfl
@[simp] theorem State.tick_result (s : State) : (s.tick).result = s.result := rfl
@[simp] theorem State.tick_errKind (s : State) : (s.tick).errKind = s.errKind := rfl
@[simp] theorem State.tick_wlen (s : State) : (s.tick).wlen = s.wlen := rfl
@[simp] theorem State.tick_rlen (s : State) : (s.tick).rlen = s.rlen := rfl
@[simp] theorem State.tick_wbuf (s : State) : (s.tick).wbuf = s.wbuf := rfl
@[simp] theorem State.tick_rbuf (s : State) : (s.tick).rbuf = s.rbuf := rfl
@[simp] theorem State.tick_drvScl (s : State) : (s.tick).drvScl = s.drvScl := rfl
@[simp] theorem State.tick_drvSda (s : State) : (s.tick).drvSda = s.drvSda := rfl
@[simp] theorem State.tick_adr (s : State) : (s.tick).adr = s.adr := rfl
@[simp] theorem State.tick_wl (s : State) : (s.tick).wl = s.wl := rfl
@[simp] theorem State.tick_rl (s : State) : (s.tick).rl = s.rl := rfl
@[simp] theorem State.tick_locals (s : State) : (s.tick).locals = s.locals := rfl
@[simp] theorem State.tick_pc (s : State) : (s.tick).pc = s.pc := rfl
@[simp] theorem State.tick_trace (s : State) : (s.tick).trace = s.trace := rfl
@[simp] theorem State.tick_responses (s : State) : (s.tick).responses = s.responses := rfl
@[simp] theorem State.tick_answers (s : State) : (s.tick).answers = s.answers := rfl
@[simp] theorem State.tick_requests (s : State) : (s.tick).requests = countDown s.requests := rfl
@[simp] theorem State.tick_freeIdx (s : State) : (s.tick).freeIdx = s.freeIdx := rfl

/-! ### the line shadow state -/

@[simp] theorem State.setDrv_scl_drvScl (d : Drv) (s : State) : (s.setDrv .scl d).drvScl = d := rfl
@[simp] theorem State.setDrv_scl_drvSda (d : Drv) (s : State) : (s.setDrv .scl d).drvSda = s.drvSda := rfl
@[simp] theorem State.setDrv_sda_drvSda (d : Drv) (s : State) : (s.setDrv .sda d).drvSda = d := rfl
@[simp] theorem State.setDrv_sda_drvScl (d : Drv) (s : State) : (s.setDrv .sda d).drvScl = s.drvScl := rfl
@[simp] theorem State.drv_scl (s : State) : s.drv .scl = s.drvScl := rfl
@[simp] theorem State.drv_sda (s : State) : s.drv .sda = s.drvSda := rfl
@[simp] theorem State.setDrv_drv_self (L : Line) (d : Drv) (s : State) : (s.setDrv L d).drv L = d := by cases L <;> rfl

/-! ### the fields of STATUS -/

theorem statusWord_bit0 (c b : Bool) : (statusWord c b).getLsbD 0 = c := by
  cases c <;> cases b <;> rfl
theorem statusWord_bit1 (c b : Bool) : (statusWord c b).getLsbD 1 = b := by
  cases c <;> cases b <;> rfl
@[simp] theorem statusWord_zero (c b : Bool) : (statusWord c b)[0] = c := by
  cases c <;> cases b <;> rfl
@[simp] theorem statusWord_one (c b : Bool) : (statusWord c b)[1] = b := by
  cases c <;> cases b <;> rfl
theorem statusWord_toNat_lt (c b : Bool) : (statusWord c b).toNat < 4 := by cases c <;> cases b <;> decide
@[simp] theorem State.setBusy_busy (b : Bool) (s : State) : (s.setBusy b).busy = b := statusWord_bit1 _ _
@[simp] theorem State.setBusy_configured (b : Bool) (s : State) : (s.setBusy b).configured = s.configured :=
  statusWord_bit0 _ _
@[simp] theorem State.setConfigured_configured (b : Bool) (s : State) : (s.setConfigured b).configured = b :=
  statusWord_bit0 _ _
@[simp] theorem State.setConfigured_busy (b : Bool) (s : State) : (s.setConfigured b).busy = s.busy :=
  statusWord_bit1 _ _
@[simp] theorem State.toIdle_busy (s : State) : s.toIdle.busy = false := statusWord_bit1 _ _
@[simp] theorem State.toIdle_configured (s : State) : s.toIdle.configured = s.configured :=
  statusWord_bit0 _ _
@[simp] theorem State.raise_busy (c : Cause) (s : State) : (s.raise c).busy = false := statusWord_bit1 _ _
@[simp] theorem State.raise_configured (c : Cause) (s : State) : (s.raise c).configured = s.configured :=
  statusWord_bit0 _ _
@[simp] theorem State.endCommand_busy (s : State) : s.endCommand.busy = false := statusWord_bit1 _ _
@[simp] theorem State.endCommand_configured (s : State) : s.endCommand.configured = s.configured :=
  statusWord_bit0 _ _

@[simp] theorem State.goto_busy (p : Pos) (s : State) : (s.goto p).busy = s.busy := rfl
@[simp] theorem State.goto_configured (p : Pos) (s : State) : (s.goto p).configured = s.configured := rfl
@[simp] theorem State.goto_statusRead (p : Pos) (s : State) : (s.goto p).statusRead = s.statusRead := rfl
@[simp] theorem State.goto_resultRead (p : Pos) (s : State) : (s.goto p).resultRead = s.resultRead := rfl
@[simp] theorem State.call_busy (i : Instr) (s : State) : (s.call i).busy = s.busy := rfl
@[simp] theorem State.call_configured (i : Instr) (s : State) : (s.call i).configured = s.configured := rfl
@[simp] theorem State.call_statusRead (i : Instr) (s : State) : (s.call i).statusRead = s.statusRead := rfl
@[simp] theorem State.call_resultRead (i : Instr) (s : State) : (s.call i).resultRead = s.resultRead := rfl
@[simp] theorem State.record_busy (e : Event) (s : State) : (s.record e).busy = s.busy := rfl
@[simp] theorem State.record_configured (e : Event) (s : State) : (s.record e).configured = s.configured := rfl
@[simp] theorem State.record_statusRead (e : Event) (s : State) : (s.record e).statusRead = s.statusRead := rfl
@[simp] theorem State.record_resultRead (e : Event) (s : State) : (s.record e).resultRead = s.resultRead := rfl
@[simp] theorem State.respond_busy (r : Response) (s : State) : (s.respond r).busy = s.busy := rfl
@[simp] theorem State.respond_configured (r : Response) (s : State) : (s.respond r).configured = s.configured := rfl
@[simp] theorem State.respond_statusRead (r : Response) (s : State) : (s.respond r).statusRead = s.statusRead := rfl
@[simp] theorem State.respond_resultRead (r : Response) (s : State) : (s.respond r).resultRead = s.resultRead := rfl
@[simp] theorem State.delay_busy (us : Nat) (s : State) : (s.delay us).busy = s.busy := rfl
@[simp] theorem State.delay_configured (us : Nat) (s : State) : (s.delay us).configured = s.configured := rfl
@[simp] theorem State.delay_statusRead (us : Nat) (s : State) : (s.delay us).statusRead = s.statusRead := rfl
@[simp] theorem State.delay_resultRead (us : Nat) (s : State) : (s.delay us).resultRead = s.resultRead := rfl
@[simp] theorem State.delayHalf_busy (s : State) : (s.delayHalf).busy = s.busy := rfl
@[simp] theorem State.delayHalf_configured (s : State) : (s.delayHalf).configured = s.configured := rfl
@[simp] theorem State.delayHalf_statusRead (s : State) : (s.delayHalf).statusRead = s.statusRead := rfl
@[simp] theorem State.delayHalf_resultRead (s : State) : (s.delayHalf).resultRead = s.resultRead := rfl
@[simp] theorem State.setLocals_busy (r : Locals) (s : State) : (s.setLocals r).busy = s.busy := rfl
@[simp] theorem State.setLocals_configured (r : Locals) (s : State) : (s.setLocals r).configured = s.configured := rfl
@[simp] theorem State.setLocals_statusRead (r : Locals) (s : State) : (s.setLocals r).statusRead = s.statusRead := rfl
@[simp] theorem State.setLocals_resultRead (r : Locals) (s : State) : (s.setLocals r).resultRead = s.resultRead := rfl
@[simp] theorem State.popRequest_busy (s : State) : (s.popRequest).busy = s.busy := rfl
@[simp] theorem State.popRequest_configured (s : State) : (s.popRequest).configured = s.configured := rfl
@[simp] theorem State.popRequest_statusRead (s : State) : (s.popRequest).statusRead = s.statusRead := rfl
@[simp] theorem State.popRequest_resultRead (s : State) : (s.popRequest).resultRead = s.resultRead := rfl
@[simp] theorem State.setDrv_busy (L : Line) (d : Drv) (s : State) : (s.setDrv L d).busy = s.busy := rfl
@[simp] theorem State.setDrv_configured (L : Line) (d : Drv) (s : State) : (s.setDrv L d).configured = s.configured := rfl
@[simp] theorem State.setDrv_statusRead (L : Line) (d : Drv) (s : State) : (s.setDrv L d).statusRead = s.statusRead := rfl
@[simp] theorem State.setDrv_resultRead (L : Line) (d : Drv) (s : State) : (s.setDrv L d).resultRead = s.resultRead := rfl
@[simp] theorem State.dropAnswer_busy (s : State) : (s.dropAnswer).busy = s.busy := rfl
@[simp] theorem State.dropAnswer_configured (s : State) : (s.dropAnswer).configured = s.configured := rfl
@[simp] theorem State.dropAnswer_statusRead (s : State) : (s.dropAnswer).statusRead = s.statusRead := rfl
@[simp] theorem State.dropAnswer_resultRead (s : State) : (s.dropAnswer).resultRead = s.resultRead := rfl
@[simp] theorem State.tick_busy (s : State) : (s.tick).busy = s.busy := rfl
@[simp] theorem State.tick_configured (s : State) : (s.tick).configured = s.configured := rfl
@[simp] theorem State.tick_statusRead (s : State) : (s.tick).statusRead = s.statusRead := rfl
@[simp] theorem State.tick_resultRead (s : State) : (s.tick).resultRead = s.resultRead := rfl

end Sys2Proof.Machine
end

