-- ==== Sys2Proof/Laws/Ops.lean ====
section
/-! SUPPORT. One lemma for each shared operation that says everything it can do. -/

namespace Sys2Proof

/-! ## Codes of the small enumerations (R84) -/

@[simp] theorem Line.ofBit_toBit (l : Line) : Line.ofBit l.toBit = l := by cases l <;> rfl
@[simp] theorem Line.toBit_ofBit (b : Bit) : (Line.ofBit b).toBit = b := by revert b; decide
@[simp] theorem Dir.ofBit_toBit (d : Dir) : Dir.ofBit d.toBit = d := by cases d <;> rfl
@[simp] theorem Dir.toBit_ofBit (b : Bit) : (Dir.ofBit b).toBit = b := by revert b; decide

end Sys2Proof

namespace Sys2Proof.Machine

/-! ## The half-bit period -/

@[simp] theorem halfPeriod_zero : halfPeriod 0 = Config.halfNumDivZero := rfl
theorem halfPeriod_of_ne_zero {freq : Freq} (h : freq ≠ 0) :
    halfPeriod freq = BitVec.ofNat 32 (Config.halfNum / freq.toNat) := if_neg h

/-- The quotient is exact in 32 bits: `HALF_US` ranges over 0..`HALF_NUM` (R21). -/
theorem halfPeriod_toNat {freq : Freq} (h : freq ≠ 0) : (halfPeriod freq).toNat = Config.halfNum / freq.toNat := by
  rw [halfPeriod_of_ne_zero h, BitVec.toNat_ofNat]
  exact Nat.mod_eq_of_lt (Nat.lt_of_le_of_lt (Nat.div_le_self _ _) (by decide))

/-! ## Registers and call statements -/

@[simp] theorem need_some {α : Type} (a : α) (k : α → Out) : need (some a) k = k a := rfl
@[simp] theorem need_none {α : Type} (k : α → Out) : need (none : Option α) k = .fault .unwrittenLocal := rfl

/-- A register read goes on only with the value the register holds. -/
theorem need_eq_next {α : Type} {v : Option α} {k : α → Out} {t : State} :
    need v k = .next t ↔ ∃ a, v = some a ∧ k a = .next t := by
  cases v <;> simp

@[simp] theorem State.callStmt_none (i : Instr) (k : Byte → State → Out) (s : State) :
    s.callStmt none i k = .next (s.call i) := rfl
@[simp] theorem State.callStmt_some (v : Byte) (i : Instr) (k : Byte → State → Out) (s : State) :
    s.callStmt (some v) i k = k v s := rfl

/-- A call statement either pushes its callee or goes on with the value handed back. -/
theorem State.callStmt_eq_next {r : Option Byte} {i : Instr} {k : Byte → State → Out} {s t : State} :
    s.callStmt r i k = .next t ↔ (r = none ∧ t = s.call i) ∨ ∃ v, r = some v ∧ k v s = .next t := by
  cases r <;> simp [eq_comm]

/-! ## Answers -/

theorem State.nextAnswer_cons {s : State} {a : PinAnswer} {as : List PinAnswer} (h : s.answers = a :: as) :
    s.nextAnswer = a := by simp [State.nextAnswer, h]

theorem State.dropAnswer_cons {s : State} {a : PinAnswer} {as : List PinAnswer} (h : s.answers = a :: as) :
    s.dropAnswer = { s with answers := as } := by simp [State.dropAnswer, h]

/-! ## Pin primitives: what each does on either answer -/

theorem State.pinExport_ok {s : State} {v : Bit} (h : s.nextAnswer = .ok v) (L : Line) (k : State → State) :
    s.pinExport L k = k ((s.dropAnswer.record (.claim L .ok)).setDrv L .unknown) := by
  simp [State.pinExport, h, ackOf]

theorem State.pinExport_err {s : State} {e : PErr} (h : s.nextAnswer = .err e) (L : Line) (k : State → State) :
    s.pinExport L k = (s.dropAnswer.record (.claim L (.err e))).raise (.pinFault e) := by
  simp [State.pinExport, h, ackOf]

theorem State.pinSetDir_ok {s : State} {v : Bit} (h : s.nextAnswer = .ok v) (L : Line) (d : Dir) (k : State → State) :
    s.pinSetDir L d k = k ((s.dropAnswer.record (.setDir L d .ok)).setDrv L (Dir.drv d)) := by
  simp [State.pinSetDir, h, ackOf]

theorem State.pinSetDir_err {s : State} {e : PErr} (h : s.nextAnswer = .err e) (L : Line) (d : Dir)
    (k : State → State) :
    s.pinSetDir L d k =
      ((s.dropAnswer.record (.setDir L d (.err e))).setDrv L .unknown).raise (.pinFault e) := by
  simp [State.pinSetDir, h, ackOf]

theorem State.pinSetVal_ok {s : State} {v : Bit} (h : s.nextAnswer = .ok v) (L : Line) (k : State → State) :
    s.pinSetVal L k = k ((s.dropAnswer.record (.setVal L 0 .ok)).setDrv L .pulled) := by
  simp [State.pinSetVal, h, ackOf]

theorem State.pinSetVal_err {s : State} {e : PErr} (h : s.nextAnswer = .err e) (L : Line) (k : State → State) :
    s.pinSetVal L k = ((s.dropAnswer.record (.setVal L 0 (.err e))).setDrv L .unknown).raise (.pinFault e) := by
  simp [State.pinSetVal, h, ackOf]

theorem State.pinGetVal_ok {s : State} {v : Bit} (h : s.nextAnswer = .ok v) (L : Line) (k : Bit → State → State) :
    s.pinGetVal L k = k v (s.dropAnswer.record (.getVal L (.ok v))) := by
  simp [State.pinGetVal, h]

theorem State.pinGetVal_err {s : State} {e : PErr} (h : s.nextAnswer = .err e) (L : Line) (k : Bit → State → State) :
    s.pinGetVal L k = (s.dropAnswer.record (.getVal L (.err e))).raise (.pinFault e) := by
  simp [State.pinGetVal, h]

/-- An answer is either ok or an error. -/
theorem State.nextAnswer_cases (s : State) : (∃ v, s.nextAnswer = .ok v) ∨ ∃ e, s.nextAnswer = .err e := by
  cases h : s.nextAnswer with
  | ok v => exact .inl ⟨v, rfl⟩
  | err e => exact .inr ⟨e, rfl⟩

/-! ## The control stack -/

theorem State.ret_caller {s : State} {f g : Frame} {rest : List Frame} (h : s.pc = f :: g :: rest) (v : Byte) :
    s.ret v = { s with pc := { g with returned := some v } :: rest, locals := s.locals.drop f.pos.op } := by
  simp [State.ret, h]

theorem State.ret_bottom {s : State} {f : Frame} (h : s.pc = [f]) (v : Byte) : s.ret v = s.endCommand := by
  simp [State.ret, h]

theorem State.tailcall_top {s : State} {f : Frame} {rest : List Frame} (h : s.pc = f :: rest) (i : Instr) :
    s.tailcall i = { s with pc := ⟨entryOf i, none⟩ :: rest, locals := (s.locals.drop f.pos.op).latch i } := by
  simp [State.tailcall, h]

/-! ## Issue -/

/-- A command issued is refused, changing nothing but the response, or accepted. -/
theorem State.issue_cases (i : Instr) (s : State) :
    (∃ r, s.refusal i = some r ∧ s.issue i = s.respond (.refused r)) ∨
      (s.refusal i = none ∧ s.issue i = s.accept i) := by
  cases h : s.refusal i with
  | none => exact .inr ⟨rfl, by simp [State.issue, h]⟩
  | some r => exact .inl ⟨r, rfl, by simp [State.issue, h]⟩

/-- Only an engine that is not busy accepts a command. -/
theorem State.not_busy_of_refusal_none {i : Instr} {s : State} (h : s.refusal i = none) : s.busy = false := by
  cases hb : s.busy with
  | false => rfl
  | true => simp [State.refusal, hb] at h

/-- What acceptance leaves: the command's first frame, BUSY set, an empty trace. -/
theorem State.accept_fields (i : Instr) (s : State) :
    (s.accept i).pc = [⟨entryOf i, none⟩] ∧ (s.accept i).status = statusWord s.configured true ∧
      (s.accept i).trace = [] ∧ (s.accept i).cmd = encode i := by
  unfold State.accept
  split <;> simp

/-! ## The operands of a frame -/

/-- The operation at a position is the position's. -/
theorem State.operationAt_op {s : State} {p : Pos} {i : Instr} (h : s.operationAt p = some i) : opOf i = p.op := by
  cases p <;> simp only [State.operationAt, Option.map_eq_some_iff, Option.some.injEq] at h <;>
    obtain ⟨_, _, rfl⟩ := h <;> rfl

/-- The first label of an operation is the operation's. -/
theorem entryOf_op (i : Instr) : (entryOf i).op = opOf i := by cases i <;> rfl

end Sys2Proof.Machine
end

