-- ==== Sys2Proof/Laws/PerInstr.lean ====
section
/-! SUPPORT. Facts about every operation as syntax, one lemma for each constructor. -/

namespace Sys2Proof.Laws.OpCode

/-- The word of an operation carries the operation's code in bits 3:0 (R70, R73, R74), the code is not the reserved one
(R79), and the operation's first frame is its own (R27). -/
def Statement (i : Instr) : Prop :=
  opField (encode i) = i.opcode ∧ i.opcode ≠ 0 ∧ (Machine.entryOf i).op = Machine.opOf i

/-- A word with the code in its four low bits carries that code. -/
theorem opField_append (x : BitVec 28) (op : BitVec 4) : opField (x ++ op) = op := by
  apply BitVec.eq_of_getLsbD_eq
  intro j hj
  have h : (x ++ op).getLsbD j = op.getLsbD j := by simp only [BitVec.getLsbD_append, hj, if_true]
  simpa [opField, hj] using h

theorem new : Statement .new := by unfold Statement; decide
theorem write (adr : Addr) : Statement (.write adr) := ⟨opField_append (0#21 ++ adr) 2, by simp [Instr.opcode], rfl⟩
theorem read (adr : Addr) : Statement (.read adr) := ⟨opField_append (0#21 ++ adr) 3, by simp [Instr.opcode], rfl⟩
theorem writeRead (adr : Addr) : Statement (.writeRead adr) := ⟨opField_append (0#21 ++ adr) 4, by simp [Instr.opcode], rfl⟩
theorem start : Statement .start := by unfold Statement; decide
theorem stop : Statement .stop := by unfold Statement; decide
theorem writeBit (bit : Bit) : Statement (.writeBit bit) := ⟨opField_append (0#27 ++ bit) 7, by simp [Instr.opcode], rfl⟩
theorem readBit : Statement .readBit := by unfold Statement; decide
theorem writeByte (byte : Byte) : Statement (.writeByte byte) := ⟨opField_append (0#20 ++ byte) 9, by simp [Instr.opcode], rfl⟩
theorem readByte (sendAck : Bit) : Statement (.readByte sendAck) := ⟨opField_append (0#27 ++ sendAck) 10, by simp [Instr.opcode], rfl⟩
theorem recover : Statement .recover := by unfold Statement; decide
theorem pull (line : Line) : Statement (.pull line) := ⟨opField_append (0#27 ++ line.toBit) 12, by simp [Instr.opcode], rfl⟩
theorem release (line : Line) : Statement (.release line) := ⟨opField_append (0#27 ++ line.toBit) 13, by simp [Instr.opcode], rfl⟩
theorem waitClockReleased : Statement .waitClockReleased := by unfold Statement; decide
theorem readDataIdle : Statement .readDataIdle := by unfold Statement; decide

end Sys2Proof.Laws.OpCode
end

