-- ==== Sys2Proof/Laws/Step.lean ====
section
/-! SUPPORT. What one step can be, and the composition of runs. -/

namespace Sys2Proof.Machine

/-- A step is the host's access, or one step of the sequencer. -/
theorem step_cases (s : State) :
    (∃ a, s.due = some a ∧ step s = hostAccess a s.popRequest) ∨ (s.due = none ∧ step s = sequencerStep s.tick) := by
  unfold step
  cases s.due with
  | none => exact .inr ⟨rfl, rfl⟩
  | some a => exact .inl ⟨a, rfl, rfl⟩

/-- The sequencer idles on an empty stack and otherwise runs the operation on top. -/
theorem sequencerStep_cases (s : State) :
    (s.pc = [] ∧ sequencerStep s = .next s) ∨
      (∃ f rest, s.pc = f :: rest ∧ sequencerStep s = need (s.operationAt f.pos) fun i => exec i s) := by
  unfold sequencerStep
  cases h : s.pc with
  | nil => exact .inl ⟨rfl, rfl⟩
  | cons f rest => exact .inr ⟨f, rest, rfl, rfl⟩

/-- On a quiet machine with an operation on top, the step is that operation's statement. -/
theorem step_of_quiet {s : State} {f : Frame} {rest : List Frame} {i : Instr} (hq : s.quiet) (hpc : s.pc = f :: rest)
    (hi : s.operationAt f.pos = some i) : step s = exec i s := by
  obtain ⟨hd, ht⟩ := hq
  simp [step, hd, ht, sequencerStep, hpc, hi]

/-- Quietness depends on the host's list and on BUSY only. -/
theorem State.quiet_congr {s t : State} (hr : t.requests = s.requests) (hb : t.busy = s.busy) (h : s.quiet) :
    t.quiet := by
  obtain ⟨hd, ht⟩ := h
  have hc : countDown s.requests = s.requests := congrArg State.requests ht
  refine ⟨by simpa [State.due, hr, hb] using hd, ?_⟩
  have : t.tick = { t with requests := countDown t.requests } := rfl
  rw [this, hr, hc, ← hr]

/-! ## What a statement can do to the control stack -/

/-- With `f` on top of `rest`, a statement leads from `s` to `t` by moving to another label of the same operation, by a
call, by one of the two tail calls, by a return to a caller, or by ending the command (R10, R27, R160). -/
inductive StackMove (s t : State) (f : Frame) (rest : List Frame) : Prop where
  | goto (p : Pos) (hop : p.op = f.pos.op) (h : t.pc = ⟨p, none⟩ :: rest)
  | call (c : Instr) (hr : f.returned = none) (hc : f.pos.calls (opOf c) = true)
      (h : t.pc = ⟨entryOf c, none⟩ :: f :: rest)
  | tail (c : Instr) (hc : (f.pos = .stop .e2 ∧ c = .recover) ∨ (f.pos = .recover .v11 ∧ c = .stop))
      (h : t.pc = ⟨entryOf c, none⟩ :: rest)
  | ret (g : Frame) (rest' : List Frame) (v : Byte) (hr : rest = g :: rest')
      (h : t.pc = { g with returned := some v } :: rest')
  | ends (h : t.pc = [])

section

variable {s u : State} {f : Frame} {rest : List Frame}

theorem ret_move (h : s.pc = f :: rest) (v : Byte) : StackMove s (s.ret v) f rest := by
  cases rest with
  | nil => exact .ends (by simp [State.ret_bottom h])
  | cons g gs => exact .ret g gs v rfl (by rw [State.ret_caller h])

theorem goto_move (h : u.pc = f :: rest) (p : Pos) (hp : p.op = f.pos.op) : StackMove s (u.goto p) f rest :=
  .goto p hp (by simp [h])

theorem call_move (h : u.pc = f :: rest) (hr : f.returned = none) (c : Instr) (hc : f.pos.calls (opOf c) = true) :
    StackMove s (u.call c) f rest := .call c hr hc (by simp [h])

theorem tail_move (h : u.pc = f :: rest) (c : Instr)
    (hc : (f.pos = .stop .e2 ∧ c = .recover) ∨ (f.pos = .recover .v11 ∧ c = .stop)) :
    StackMove s (u.tailcall c) f rest := .tail c hc (by rw [State.tailcall_top h])

theorem raise_move (c : Cause) : StackMove s (u.raise c) f rest := .ends (by simp)

theorem pinExport_move (h : s.pc = f :: rest) (L : Line) (p : Pos) (hp : p.op = f.pos.op) :
    StackMove s (s.pinExport L (State.goto p)) f rest := by
  rcases s.nextAnswer_cases with ⟨v, hv⟩ | ⟨e, he⟩
  · rw [State.pinExport_ok hv]; exact goto_move (by simp [h]) p hp
  · rw [State.pinExport_err he]; exact raise_move _

theorem pinSetDir_move (h : s.pc = f :: rest) (L : Line) (d : Dir) (p : Pos) (hp : p.op = f.pos.op) :
    StackMove s (s.pinSetDir L d (State.goto p)) f rest := by
  rcases s.nextAnswer_cases with ⟨v, hv⟩ | ⟨e, he⟩
  · rw [State.pinSetDir_ok hv]; exact goto_move (by simp [h]) p hp
  · rw [State.pinSetDir_err he]; exact raise_move _

theorem pinSetVal_move (h : s.pc = f :: rest) (L : Line) (p : Pos) (hp : p.op = f.pos.op) :
    StackMove s (s.pinSetVal L (State.goto p)) f rest := by
  rcases s.nextAnswer_cases with ⟨v, hv⟩ | ⟨e, he⟩
  · rw [State.pinSetVal_ok hv]; exact goto_move (by simp [h]) p hp
  · rw [State.pinSetVal_err he]; exact raise_move _

theorem pinGetVal_move (h : s.pc = f :: rest) (L : Line) (k : Bit → State → State)
    (hk : ∀ v t, t.pc = f :: rest → StackMove s (k v t) f rest) : StackMove s (s.pinGetVal L k) f rest := by
  rcases s.nextAnswer_cases with ⟨v, hv⟩ | ⟨e, he⟩
  · rw [State.pinGetVal_ok hv]; exact hk v _ (by simp [h])
  · rw [State.pinGetVal_err he]; exact raise_move _

end

/-- Whatever statement runs, the control stack makes one of the moves above. -/
theorem exec_move {i : Instr} {s t : State} {f : Frame} {rest : List Frame} (h : s.pc = f :: rest)
    (hop : opOf i = f.pos.op) (he : exec i s = .next t) : StackMove s t f rest := by
  obtain ⟨p, r⟩ := f
  cases i <;> cases p <;> simp only [opOf, Pos.op, reduceCtorEq] at hop <;> clear hop <;> rename_i l <;>
    cases l <;> cases r
  all_goals
    simp only [exec, execNew, execWrite, execRead, execWriteRead, execStart, execStop, execWriteBit, execReadBit,
      execWriteByte, execReadByte, execRecover, execPull, execRelease, execWaitClockReleased, execReadDataIdle, h,
      State.sendAddress, State.sendLoop, State.receiveLoop, need_eq_next, State.callStmt_none, State.callStmt_some,
      Config.sampleViaLineController, if_true, Host.Outcome.next.injEq] at he
  all_goals
    repeat' first
      | (obtain ⟨a, ha, he⟩ := he)
      | (split at he)
      | (simp only [need_eq_next, State.callStmt_none, State.callStmt_some, Host.Outcome.next.injEq, reduceCtorEq] at he)
  all_goals try split
  all_goals first
    | exact ret_move h _
    | exact pinSetDir_move h _ _ _ rfl
    | exact pinSetVal_move h _ _ rfl
    | exact pinExport_move h _ _ rfl
    | exact pinGetVal_move h _ _ fun v t ht => goto_move (by simp [ht]) _ rfl
    | exact goto_move (by simp [h]) _ rfl
    | exact call_move (by simp [h]) rfl _ rfl
    | exact raise_move _
    | exact tail_move h _ (.inl ⟨rfl, rfl⟩)
    | exact tail_move h _ (.inr ⟨rfl, rfl⟩)

/-! ## What a step does to the script of the pin environment -/

theorem State.ret_answers (v : Byte) (s : State) : (s.ret v).answers = s.answers := by
  unfold State.ret; split <;> rfl
theorem State.tailcall_answers (i : Instr) (s : State) : (s.tailcall i).answers = s.answers := by
  unfold State.tailcall; split <;> rfl
theorem State.issue_answers (i : Instr) (s : State) : (s.issue i).answers = s.answers := by
  unfold State.issue; split
  · rfl
  · unfold State.accept; simp only; split <;> rfl
theorem State.pinExport_answers (L : Line) (p : Pos) (s : State) :
    (s.pinExport L (State.goto p)).answers = s.answers.tail := by
  rcases s.nextAnswer_cases with ⟨v, hv⟩ | ⟨e, he⟩
  · rw [State.pinExport_ok hv]; rfl
  · rw [State.pinExport_err he]; rfl
theorem State.pinSetDir_answers (L : Line) (d : Dir) (p : Pos) (s : State) :
    (s.pinSetDir L d (State.goto p)).answers = s.answers.tail := by
  rcases s.nextAnswer_cases with ⟨v, hv⟩ | ⟨e, he⟩
  · rw [State.pinSetDir_ok hv]; rfl
  · rw [State.pinSetDir_err he]; rfl
theorem State.pinSetVal_answers (L : Line) (p : Pos) (s : State) :
    (s.pinSetVal L (State.goto p)).answers = s.answers.tail := by
  rcases s.nextAnswer_cases with ⟨v, hv⟩ | ⟨e, he⟩
  · rw [State.pinSetVal_ok hv]; rfl
  · rw [State.pinSetVal_err he]; rfl
theorem State.pinGetVal_answers (L : Line) (k : Bit → State → State) (hk : ∀ v t, (k v t).answers = t.answers) (s : State) :
    (s.pinGetVal L k).answers = s.answers.tail := by
  rcases s.nextAnswer_cases with ⟨v, hv⟩ | ⟨e, he⟩
  · rw [State.pinGetVal_ok hv, hk]; rfl
  · rw [State.pinGetVal_err he]; rfl

/-- A statement, an acceptance or a call takes at most one answer of the pin environment (R10). -/
theorem exec_answers {i : Instr} {s t : State} (he : exec i s = .next t) :
    t.answers = s.answers ∨ t.answers = s.answers.tail := by
  cases i
  all_goals
    simp only [exec, execNew, execWrite, execRead, execWriteRead, execStart, execStop, execWriteBit, execReadBit,
      execWriteByte, execReadByte, execRecover, execPull, execRelease, execWaitClockReleased, execReadDataIdle] at he
    split at he
  all_goals
    repeat' first
      | (obtain ⟨a, ha, he⟩ := he)
      | (split at he)
      | (simp only [State.sendAddress, State.sendLoop, State.receiveLoop, State.callStmt, need_eq_next, Host.Outcome.next.injEq] at he)
  all_goals try split
  all_goals first
    | simp [State.ret_answers, State.issue_answers, State.tailcall_answers, State.pinExport_answers,
        State.pinSetDir_answers, State.pinSetVal_answers, State.delayHalf, State.delay]
    | (refine .inr (State.pinGetVal_answers _ _ ?_ _); intros; rfl)

/-- An access of the host takes no answer, but for the statement a command word may run. -/
theorem hostAccess_answers {a : HostAction} {s t : State} (h : hostAccess a s = .next t) :
    t.answers = s.answers ∨ t.answers = s.answers.tail := by
  have refuse (r : RefuseReason) : (s.refuse r).answers = s.answers := rfl
  cases a with
  | writeReg r w =>
    cases r <;> simp only [hostAccess, State.writeReg, State.writeCmd] at h <;> repeat' split at h
    all_goals first
      | exact exec_answers h
      | (cases h; exact .inl rfl)
  | readReg r =>
    cases r <;> simp only [hostAccess, State.readReg, Host.Outcome.next.injEq] at h <;> subst h <;>
      first | exact .inl rfl | (left; split <;> rfl)
  | writeBuf b i v =>
    cases h
    cases b <;> (unfold State.writeBuf; split <;> exact .inl rfl)
  | readBuf b i =>
    cases h
    unfold State.readBuf
    split <;> exact .inl rfl
  | hardwareReset => cases h

/-- A step takes at most one answer of the pin environment (R7, R28). -/
theorem step_answers {s t : State} (h : step s = .next t) :
    t.answers = s.answers ∨ t.answers = s.answers.tail := by
  rcases step_cases s with ⟨a, -, ha⟩ | ⟨-, hs⟩
  · rw [ha] at h
    exact hostAccess_answers (s := s.popRequest) h
  · rw [hs] at h
    rcases sequencerStep_cases s.tick with ⟨-, hn⟩ | ⟨f, rest, -, hn⟩ <;> rw [hn] at h
    · cases h
      exact .inl rfl
    · obtain ⟨i, -, he⟩ := need_eq_next.mp h
      exact exec_answers (s := s.tick) he

/-! ## Runs -/

theorem run_zero (s : State) : run 0 s = .next s := rfl

/-- A step that goes on is the first of the run. -/
theorem run_succ_of_next {s t : State} (h : step s = .next t) (n : Nat) : run (n + 1) s = run n t := by
  simp [run, h]

/-- A run that ends in a next state began with a step that goes on. -/
theorem run_succ_eq_next {s t : State} {n : Nat} (h : run (n + 1) s = .next t) :
    ∃ u, step s = .next u ∧ run n u = .next t := by
  cases hs : step s with
  | next u => exact ⟨u, rfl, by rwa [run_succ_of_next hs] at h⟩
  | fault r => simp [run, hs] at h
  | refused r => simp [run, hs] at h

theorem run_add {s t : State} {m : Nat} (h : run m s = .next t) (n : Nat) : run (m + n) s = run n t := by
  induction m generalizing s with
  | zero => cases h; simp
  | succ m ih =>
    obtain ⟨u, hu, h⟩ := run_succ_eq_next h
    rw [Nat.add_right_comm, run_succ_of_next hu, ih h]

/-- `n` steps take at most `n` answers, the next ones of the script. -/
theorem run_answers {s t : State} {n : Nat} (h : run n s = .next t) : ∃ m ≤ n, t.answers = s.answers.drop m := by
  induction n generalizing s with
  | zero => cases h; exact ⟨0, Nat.le_refl _, rfl⟩
  | succ n ih =>
    obtain ⟨u, hu, h⟩ := run_succ_eq_next h
    obtain ⟨m, hm, e⟩ := ih h
    rcases step_answers hu with a | a
    · exact ⟨m, by omega, by rw [e, a]⟩
    · exact ⟨m + 1, by omega, by rw [e, a, List.drop_tail]⟩

theorem Runs.refl (s : State) : Runs s s := ⟨0, rfl⟩

theorem Runs.trans {s t u : State} (h : Runs s t) (h' : Runs t u) : Runs s u := by
  obtain ⟨m, hm⟩ := h
  obtain ⟨n, hn⟩ := h'
  exact ⟨m + n, by rw [run_add hm]; exact hn⟩

theorem Runs.of_step {s t : State} (h : step s = .next t) : Runs s t := ⟨1, by rw [run_succ_of_next h]; rfl⟩

/-- One statement of a quiet machine, then the rest of a run. -/
theorem Runs.statement {s t u : State} {f : Frame} {rest : List Frame} {i : Instr} (hq : s.quiet)
    (hpc : s.pc = f :: rest) (hi : s.operationAt f.pos = some i) (he : exec i s = .next t) (h : Runs t u) : Runs s u :=
  (Runs.of_step (by rw [step_of_quiet hq hpc hi]; exact he)).trans h

end Sys2Proof.Machine
end

