-- ==== Sys2Proof/Tests/Slice0.lean ====
section
/-! SUPPORT. The model's own tests, with expected values from the spec's encodings and vectors, and for every statement
with hypotheses a witness that meets them. -/

namespace Sys2Proof.Tests

open Sys2Proof.Machine

/-! ## WellFormed -/

theorem test_wf_start_at_cmd : Instr.wellFormedAt .cmd .start = false := by decide
theorem test_wf_stop_at_cmd : Instr.wellFormedAt .cmd .stop = false := by decide
theorem test_wf_writeBit_at_cmd : Instr.wellFormedAt .cmd (.writeBit 1) = false := by decide
theorem test_wf_pull_at_cmd : Instr.wellFormedAt .cmd (.pull .sda) = false := by decide
theorem test_wf_write_at_cmd : Instr.wellFormedAt .cmd (.write 0x50) = true := by decide
theorem test_wf_pull_in_frame : Instr.wellFormedAt .frame (.pull .sda) = true := by decide

/-! ## Decode: words written out from R71, R73, R74, highest bit first -/

theorem test_decode_new : decode 0b00000000000000000000000000000001 = .ok .new := by decide
theorem test_decode_write : decode 0b00000000000000000000010100000010 = .ok (.write 0x50) := by decide
theorem test_decode_read : decode 0b00000000000000000000011111110011 = .ok (.read 0x7F) := by decide
theorem test_decode_writeRead : decode 0b00000000000000000000010100000100 = .ok (.writeRead 0x50) := by decide
theorem test_decode_start : decode 0b00000000000000000000000000000101 = .ok .start := by decide
theorem test_decode_stop : decode 0b00000000000000000000000000000110 = .ok .stop := by decide
theorem test_decode_writeBit : decode 0b00000000000000000000000000010111 = .ok (.writeBit 1) := by decide
theorem test_decode_readBit : decode 0b00000000000000000000000000001000 = .ok .readBit := by decide
theorem test_decode_writeByte : decode 0b00000000000000000000101000001001 = .ok (.writeByte 0xA0) := by decide
theorem test_decode_readByte : decode 0b00000000000000000000000000011010 = .ok (.readByte 1) := by decide
theorem test_decode_recover : decode 0b00000000000000000000000000001011 = .ok .recover := by decide
theorem test_decode_pull : decode 0b00000000000000000000000000011100 = .ok (.pull .sda) := by decide
theorem test_decode_release : decode 0b00000000000000000000000000001101 = .ok (.release .scl) := by decide
theorem test_decode_wait : decode 0b00000000000000000000000000001110 = .ok .waitClockReleased := by decide
theorem test_decode_idle : decode 0b00000000000000000000000000001111 = .ok .readDataIdle := by decide

theorem test_decode_op0 : decode 0x00000000 = .error .reservedOp := by decide
theorem test_decode_new_address : decode 0x00000011 = .error .newAddress := by decide
theorem test_decode_bit11 : decode 0x00000D02 = .error .nonzeroBits := by decide
theorem test_decode_bit31 : decode 0x80000502 = .error .nonzeroBits := by decide
theorem test_decode_pull_bit5 : decode 0x0000002C = .error .nonzeroBits := by decide

/-- R84: SCL = 0, SDA = 1; Input = 0, Output = 1. -/
theorem test_codes :
    Line.scl.toBit = 0 ∧ Line.sda.toBit = 1 ∧ Dir.input.toBit = 0 ∧ Dir.output.toBit = 1 := by decide

/-! ## Small states and what a test looks at -/

/-- A configured, running engine with `HALF_US` = 5 and both lines pulled, standing at `p`; the call at `p` has handed
back `r`. -/
def st (p : Pos) (r : Option Byte := none) (rest : List Frame := []) : State :=
  { State.reset with
    freq := 100000, halfUs := 5, status := 3, drvScl := .pulled, drvSda := .pulled
    adr := some 0x50, wl := some 2, rl := some 2, pc := ⟨p, r⟩ :: rest }

/-- The state with scripted answers. -/
def ans (as : List PinAnswer) (s : State) : State := { s with answers := as }

/-- The state with values in the operation-local registers. -/
def loc (l : Locals) (s : State) : State := { s with locals := l }

/-- A configured engine that runs nothing. -/
def idle : State := { st (.new .n0) with status := 1, pc := [], drvScl := .released, drvSda := .released, adr := none, wl := none, rl := none }

/-- The operand of PULL and RELEASE in its register. -/
def lineOp (L : Line) : Locals := { Locals.dead with pullL := some L, releaseL := some L }

/-- What a test looks at in a next state. -/
def look {α : Type} (f : State → α) : Out → Option α
  | .next s => some (f s)
  | .fault _ => none
  | .refused _ => none

/-- The position on top of the stack. -/
def top (s : State) : Option Pos := s.pc.head?.map Frame.pos

/-! ## One step of each operation -/

/-- R90 P0. -/
theorem test_pull_p0 :
    look (fun t => (t.trace, t.drvSda, top t)) (exec (.pull .sda) (ans [.ok 0] (st (.pull .p0)))) =
      some ([.setDir .sda .output .ok], .outUnset, some (.pull .p1)) := by decide
/-- R90: a fault at P1 leaves the line UNKNOWN and issues no delay. -/
theorem test_pull_p1_err :
    look (fun t => (t.trace, t.drvScl, t.pc, t.result, t.errKind))
      (exec (.pull .scl) (ans [.err ⟨9⟩] (st (.pull .p1)))) =
      some ([.setVal .scl 0 (.err ⟨9⟩)], .unknown, [], 2, ⟨9⟩) := by decide
/-- R91 L2. -/
theorem test_release_l2 :
    look (fun t => (t.trace, t.locals.releaseV, top t)) (exec (.release .scl) (ans [.ok 1] (st (.release .l2)))) =
      some ([.getVal .scl (.ok 1)], some 1, some (.release .l3)) := by decide
/-- R91: the delay comes before the sample. -/
theorem test_release_l1 :
    look (fun t => (t.trace, top t)) (exec (.release .scl) (st (.release .l1))) =
      some ([.delay 5], some (.release .l2)) := by decide
/-- R92 W3: no long wait when the clock read 1. -/
theorem test_wait_w3_high :
    look (fun t => (t.trace, top t)) (exec .waitClockReleased (loc { Locals.dead with waitV := some 1 } (st (.waitClockReleased .w3)))) =
      some ([], some (.waitClockReleased .w4)) := by decide
/-- R92 W3: one long wait, and no second sample, when it read 0. -/
theorem test_wait_w3_low :
    exec .waitClockReleased (loc { Locals.dead with waitV := some 0 } (st (.waitClockReleased .w3))) =
      .next { loc { Locals.dead with waitV := some 0 } (st (.waitClockReleased .w3)) with
        trace := [.delay Config.tStretchUs], pc := [⟨.waitClockReleased .w4, none⟩] } := rfl
/-- R93 I0: the data line is released. -/
theorem test_idle_i0 :
    look (fun t => (t.trace, t.drvSda, t.drvScl)) (exec .readDataIdle (ans [.ok 0] (st (.readDataIdle .i0)))) =
      some ([.setDir .sda .input .ok], .released, .pulled) := by decide
/-- R93 I3: the caller receives the level. -/
theorem test_idle_i3 :
    look (fun t => (t.pc, t.locals.idleV))
      (exec .readDataIdle (loc { Locals.dead with idleV := some 1 } (st (.readDataIdle .i3) none [⟨.start .s0, none⟩]))) =
      some ([⟨.start .s0, some 1⟩], none) := by decide
/-- R100 S1: recovery when the data line read 0. -/
theorem test_start_s1_low :
    look top (exec .start (loc { Locals.dead with startD := some 0 } (st (.start .s1)))) = some (some (.recover .v0)) := by
  decide
/-- R100 S1: none when it read 1. -/
theorem test_start_s1_high :
    look top (exec .start (loc { Locals.dead with startD := some 1 } (st (.start .s1)))) = some (some (.start .s2)) := by
  decide
/-- R101 E2: the frame of STOP is replaced by RECOVER's. -/
theorem test_stop_e2_low :
    look (fun t => t.pc) (exec .stop (loc { Locals.dead with stopD := some 0 } (st (.stop .e2) none [⟨.write .a3, none⟩]))) =
      some [⟨.recover .v0, none⟩, ⟨.write .a3, none⟩] := by decide
/-- R101 E1: STOP samples through RELEASE(SDA). -/
theorem test_stop_e1 :
    look (fun t => (top t, t.locals.releaseL)) (exec .stop (st (.stop .e1))) = some (some (.release .l0), some .sda) := by
  decide
/-- R102 B2: the third sample is the bit. -/
theorem test_readBit_b2 :
    look (fun t => (t.locals.readBitB, top t)) (exec .readBit (st (.readBit .b2) (some 1))) =
      some (some 1, some (.readBit .b3)) := by decide
/-- R102 B3: the clock is pulled before the data line. -/
theorem test_readBit_b3 :
    look (fun t => (top t, t.locals.pullL)) (exec .readBit (st (.readBit .b3))) = some (some (.pull .p0), some .scl) := by
  decide
/-- R103 C0: a 1 is sent by releasing. -/
theorem test_writeBit_1 :
    look (fun t => (top t, t.locals.releaseL)) (exec (.writeBit 1) (st (.writeBit .c0))) =
      some (some (.release .l0), some .sda) := by decide
/-- R103 C0: a 0 is sent by pulling. -/
theorem test_writeBit_0 :
    look (fun t => (top t, t.locals.pullL)) (exec (.writeBit 0) (st (.writeBit .c0))) =
      some (some (.pull .p0), some .sda) := by decide
/-- R110 Y1: the bit read is shifted in at the low end. -/
theorem test_readByte_y1 :
    look (fun t => (t.locals.readByteV, t.locals.readByteI, top t))
      (exec (.readByte 1) (loc { Locals.dead with readByteV := some 0x1E, readByteI := some 0 } (st (.readByte .y1) (some 1)))) =
      some (some 0x3D, some 0, some (.readByte .y2)) := by decide
/-- R110 Y2: NACK when `send_ack` is 0. -/
theorem test_readByte_nack :
    look (fun t => t.locals.writeBitBit) (exec (.readByte 0) (st (.readByte .y2))) = some (some 1) := by decide
/-- R111 X0, E13: bit 7 of 0xA0 is sent first. -/
theorem test_writeByte_first :
    look (fun t => t.locals.writeBitBit) (exec (.writeByte 0xA0) (loc { Locals.dead with writeByteI := some 7 } (st (.writeByte .x0)))) =
      some (some 1) := by decide
/-- R111: a NACK is returned and nothing else. -/
theorem test_writeByte_nack :
    look (fun t => t.pc) (exec (.writeByte 0xA0)
      (loc { Locals.dead with writeByteAck := some 1 } (st (.writeByte .x2) none [⟨.write .a1, none⟩]))) =
      some [⟨.write .a1, some 1⟩] := by decide
/-- R120 V5: the tenth pulse ends the burst. -/
theorem test_recover_tenth :
    look (fun t => (t.locals.recoverPulse, top t)) (exec .recover (loc { Locals.dead with recoverPulse := some 9 } (st (.recover .v5)))) =
      some (some 10, some (.recover .v6)) := by decide
/-- R120 V8: the hundredth burst ends the loop though the check read 0. -/
theorem test_recover_hundredth :
    look (fun t => (t.locals.recoverBurst, top t))
      (exec .recover (loc { Locals.dead with recoverBurst := some 99, recoverD := some 0 } (st (.recover .v8)))) =
      some (some 100, some (.recover .v9)) := by decide
/-- R130 N0: DivFault, with no event. -/
theorem test_new_zero :
    look (fun t => (t.trace, t.result, t.status, t.pc)) (exec .new { st (.new .n0) with freq := 0, status := 2 }) =
      some ([], 3, 0, []) := by decide
/-- R130 N3, E12. -/
theorem test_new_half :
    look (fun t => (t.halfUs, t.configured)) (exec .new { st (.new .n3) with freq := 3, halfUs := 0, status := 2 }) =
      some (166666, true) := by decide
/-- R131 A1, E8. -/
theorem test_write_address :
    look (fun t => (t.locals.writeByteByte, top t)) (exec (.write 0x50) (st (.write .a1))) =
      some (some 0xA0, some (.writeByte .x0)) := by decide
/-- R131 A2: the loop is left when `idx` reaches the latched length, NACK or not. -/
theorem test_write_loop_end :
    look top (exec (.write 0x50) (loc { Locals.dead with idx := some 2, a := some 1 } (st (.write .a2)))) =
      some (some (.write .a3)) := by decide
/-- R132 A1, E8. -/
theorem test_read_address :
    look (fun t => t.locals.writeByteByte) (exec (.read 0x50) (st (.read .a1))) = some (some 0xA1) := by decide
/-- R132 A2: NACK on the last byte. -/
theorem test_read_last :
    look (fun t => t.locals.readByteSendAck) (exec (.read 0x50) (loc { Locals.dead with idx := some 1 } (st (.read .a2)))) =
      some (some 0) := by decide
/-- R133 A3: the repeated start is START. -/
theorem test_writeRead_restart :
    look top (exec (.writeRead 0x50) (st (.writeRead .a3))) = some (some (.start .s0)) := by decide
/-- R133 A5: ACK on a byte that is not the last. -/
theorem test_writeRead_ack :
    look (fun t => t.locals.readByteSendAck)
      (exec (.writeRead 0x50) (loc { Locals.dead with idx := some 0 } (st (.writeRead .a5)))) = some (some 1) := by decide

/-! ## Host accesses -/

/-- R164, order 1: BUSY comes before ILLEGAL. -/
theorem test_busy_first :
    look (fun t => t.responses) (hostAccess (.writeReg .cmd 0) (st (.write .a0))) = some [.refused .busy] := by decide
/-- R164, order 2: ILLEGAL comes before UNCONFIGURED. -/
theorem test_illegal_before_unconfigured :
    look (fun t => t.responses) (hostAccess (.writeReg .cmd 0x80000002) State.reset) = some [.refused .illegal] := by decide
/-- R22: FREQ is fixed once configured. -/
theorem test_freq_configured :
    look (fun t => (t.freq, t.responses)) (hostAccess (.writeReg .freq 7) idle) = some (100000, [.refused .access]) := by
  decide
/-- R26: acceptance latches the operands. -/
theorem test_accept_read :
    look (fun t => (t.adr, t.wl, t.rl, t.busy, top t)) (hostAccess (.writeReg .cmd 0x00000503) { idle with wlen := 2 }) =
      some (some 0x50, some 2, some 0, true, some (.read .a0)) := by decide

/-! ## Witnesses: for each statement with hypotheses, states and operands that meet them, clause by clause -/

theorem witness_EncodeOfDecode : decode 0x000007F3 = .ok (.read 0x7F) := by decide
theorem witness_DecoderAcceptsTheTable :
    decode 0x00000A09 = .ok (.writeByte 0xA0) ∧ (Instr.write 0).tableRow.accepts 0x00000502 = true := by decide
/-- One word of each illegal kind, at the boundaries of `op`. -/
theorem witness_IllegalCommandWords :
    idle.busy = false ∧ decodeCommand 0 = none ∧ decodeCommand 5 = none ∧ decodeCommand 15 = none ∧
      decodeCommand 0x00000802 = none ∧ decodeCommand 0x80000002 = none ∧ decodeCommand 0x00000011 = none ∧
      decodeCommand 1 = some .new ∧ decodeCommand 0x000007F4 = some (.writeRead 0x7F) := by decide
theorem witness_CommandRefusals :
    (st (.write .a0)).busy = true ∧ idle.busy = false ∧ idle.pc = [] ∧ idle.configured = true ∧
      decodeCommand 1 = some .new ∧ decodeCommand 0x00000503 = some (.read 0x50) ∧
      State.reset.busy = false ∧ State.reset.pc = [] ∧ State.reset.configured = false ∧
      decodeCommand 0x00000502 = some (.write 0x50) ∧ decodeCommand 0x00000504 = some (.writeRead 0x50) := by decide
theorem witness_CommandRefusals_accepted :
    decodeCommand 0 = none ∧ idle.wlen.toNat ≤ Config.bufMax ∧ idle.rlen.toNat ≤ Config.bufMax := by decide
/-- RF8: for every `BUF_MAX` a 32-bit length can exceed, the length `BUF_MAX + 1`. -/
theorem witness_CommandRefusals_length (h : Config.bufMax + 1 < 2 ^ 32) :
    Config.bufMax < ({ idle with wlen := BitVec.ofNat 32 (Config.bufMax + 1) }).wlen.toNat ∧
      Config.bufMax < ({ idle with rlen := BitVec.ofNat 32 (Config.bufMax + 1) }).rlen.toNat := by
  have e : (BitVec.ofNat 32 (Config.bufMax + 1)).toNat = Config.bufMax + 1 := by
    rw [BitVec.toNat_ofNat, Nat.mod_eq_of_lt h]
  constructor <;> simp only [e] <;> omega
/-- Every length from 0 up to `BUF_MAX` itself. -/
theorem witness_CommandAcceptance :
    (State.reset.busy = false ∧ State.reset.pc = [] ∧ State.reset.configured = false) ∧
      (idle.busy = false ∧ idle.pc = [] ∧ idle.configured = true ∧ idle.wlen.toNat ≤ Config.bufMax ∧
        idle.rlen.toNat ≤ Config.bufMax) ∧
      ({ idle with wlen := BitVec.ofNat 32 Config.bufMax }).wlen.toNat ≤ Config.bufMax :=
  ⟨by decide, by decide, Nat.mod_le _ _⟩
theorem witness_AccessRights :
    (State.reset.configured = false ∧ State.reset.busy = false) ∧ idle.configured = true ∧ idle.busy = false ∧
      (st (.new .n0)).busy = true ∧ Config.bufMax ≤ Config.bufMax :=
  ⟨by decide, by decide, by decide, by decide, Nat.le_refl _⟩
theorem witness_RegisterReads : ({ idle with result := 2 }).result = 2 := by decide
theorem witness_HostBufferAccess :
    idle.busy = false ∧ (st (.read .a0)).busy = true ∧ Config.bufMax ≤ Config.bufMax :=
  ⟨by decide, by decide, Nat.le_refl _⟩
/-- For every `BUF_MAX` that gives the buffers a byte, the first index and the last. -/
theorem witness_buffer_index (h : 0 < Config.bufMax) : 0 < Config.bufMax ∧ Config.bufMax - 1 < Config.bufMax :=
  ⟨h, Nat.sub_lt h Nat.one_pos⟩
theorem witness_ResetAcceptsOnlyNew : (1 : Word) = 1 ∧ (0 : Word) ≠ 1 ∧ (0x00000502 : Word) ≠ 1 := by decide
theorem witness_StepRunsTheTopOperation :
    (State.due (loc (lineOp .sda) (st (.pull .p0))) = none ∧
      State.operationAt (loc (lineOp .sda) (st (.pull .p0))) (.pull .p0) = some (.pull .sda)) ∧
      (st (.write .a2)).due = none ∧ (st (.write .a2)).operationAt (.write .a2) = some (.write 0x50) ∧
      idle.due = none ∧ idle.pc = [] := by decide
theorem witness_StepRunsTheIssuedCommand :
    ({ idle with requests := [⟨.whenIdle, .writeReg .cmd 0x00000502⟩] }).due = some (.writeReg .cmd 0x00000502) ∧
      ({ idle with requests := [⟨.afterSteps 0, .writeReg .cmd 1⟩] }).due = some (.writeReg .cmd 1) ∧
      idle.busy = false ∧ decode 0x00000502 = .ok (.write 0x50) ∧ (Instr.write 0x50).isCommand = true := by decide
theorem witness_PlacedWordRuns : Instr.new.isCommand = true ∧ (Instr.pull .sda).isCommand = false := by decide
theorem witness_ReturnAndCommandEnd :
    (st (.pull .p3) none [⟨.start .s4, none⟩, ⟨.write .a0, none⟩]).pc =
        ⟨.pull .p3, none⟩ :: ⟨.start .s4, none⟩ :: [⟨.write .a0, none⟩] ∧
      (st (.write .a4)).pc = [⟨.write .a4, none⟩] := by decide
/-- A failed SetVal, two calls deep. -/
theorem witness_FaultsEndTheCommand :
    look (fun t => (t.trace, t.pc))
        (exec (.pull .scl) (ans [.err ⟨9⟩] (st (.pull .p1) none [⟨.start .s4, none⟩, ⟨.write .a0, none⟩]))) =
      some ([.setVal .scl 0 (.err ⟨9⟩)], []) ∧
      (Event.setVal .scl 0 (.err ⟨9⟩)).answerOf = some (.err ⟨9⟩) ∧
      ({ st (.new .n0) with freq := 0 }).freq = 0 ∧
      look (fun t => t.responses) (exec .new { st (.new .n0) with freq := 0 }) = some [.divFault] := by decide

/-- What the statements of an operation assume: the frame, and either answer of the pin environment. -/
theorem witness_statements (p : Pos) (r : Option Byte) (rest : List Frame) (l : Locals) (v : Bit) (k : PErr) :
    (loc l (ans [.ok v] (st p r rest))).pc = ⟨p, r⟩ :: rest ∧
      (loc l (ans [.ok v] (st p r rest))).nextAnswer = .ok v ∧
      (loc l (ans [.err k] (st p r rest))).nextAnswer = .err k := ⟨rfl, rfl, rfl⟩

/-- Every operation-local register with a value. -/
def fullLocals (b : Bit) (i : BitVec 3) (n : Nat) : Locals where
  pullL := some .sda
  releaseL := some .sda
  releaseV := some b
  waitV := some b
  idleV := some b
  startD := some b
  stopD := some b
  writeBitBit := some b
  readBitB := some b
  writeByteByte := some 0xA0
  writeByteI := some i
  writeByteAck := some b
  readByteSendAck := some b
  readByteV := some 0x3C
  readByteI := some i
  recoverBurst := some (if b = 1 then 126 else 99)
  recoverPulse := some (if b = 1 then 14 else 9)
  recoverD := some b
  idx := some n
  x := some 0
  a := some b

theorem witness_PullStatements :
    (loc (lineOp .sda) (ans [.ok 0] (st (.pull .p0)))).pc = ⟨.pull .p0, none⟩ :: [] ∧
      (loc (lineOp .sda) (ans [.ok 0] (st (.pull .p0)))).nextAnswer = .ok 0 ∧
      (ans [.err ⟨9⟩] (st (.pull .p1))).nextAnswer = .err ⟨9⟩ := ⟨rfl, rfl, rfl⟩
theorem witness_ReleaseStatements (v : Bit) :
    (loc (fullLocals v 0 0) (st (.release .l3))).pc = ⟨.release .l3, none⟩ :: [] ∧
      (loc (fullLocals v 0 0) (st (.release .l3))).locals.releaseV = some v := ⟨rfl, rfl⟩
theorem witness_WaitClockReleasedStatements :
    (loc (fullLocals 0 0 0) (st (.waitClockReleased .w3))).locals.waitV = some 0 ∧
      (loc (fullLocals 1 0 0) (st (.waitClockReleased .w3))).locals.waitV = some 1 ∧
      (st (.waitClockReleased .w3)).pc = ⟨.waitClockReleased .w3, none⟩ :: [] := ⟨rfl, rfl, rfl⟩
theorem witness_ReadDataIdleStatements (v : Bit) :
    (loc (fullLocals v 0 0) (st (.readDataIdle .i3))).pc = ⟨.readDataIdle .i3, none⟩ :: [] ∧
      (loc (fullLocals v 0 0) (st (.readDataIdle .i3))).locals.idleV = some v := ⟨rfl, rfl⟩
theorem witness_StartStatements :
    (loc (fullLocals 0 0 0) (st (.start .s1))).locals.startD = some 0 ∧
      (loc (fullLocals 1 0 0) (st (.start .s1))).locals.startD = some 1 ∧
      (st (.start .s1)).pc = ⟨.start .s1, none⟩ :: [] ∧ (st (.start .s0) (some 1)).pc = ⟨.start .s0, some 1⟩ :: [] :=
  ⟨rfl, rfl, rfl, rfl⟩
theorem witness_StopStatements :
    (loc (fullLocals 0 0 0) (st (.stop .e2))).locals.stopD = some 0 ∧
      (loc (fullLocals 1 0 0) (st (.stop .e2))).locals.stopD = some 1 ∧
      (st (.stop .e2)).pc = ⟨.stop .e2, none⟩ :: [] := ⟨rfl, rfl, rfl⟩
theorem witness_ReadBitStatements (b : Bit) :
    (loc (fullLocals b 0 0) (st (.readBit .b5))).locals.readBitB = some b ∧
      (st (.readBit .b5)).pc = ⟨.readBit .b5, none⟩ :: [] := ⟨rfl, rfl⟩
theorem witness_WriteBitStatements :
    (st (.writeBit .c0)).pc = ⟨.writeBit .c0, none⟩ :: [] ∧
      (st (.writeBit .c0) (some 0)).pc = ⟨.writeBit .c0, some 0⟩ :: [] := ⟨rfl, rfl⟩
/-- The first and the last bit index. -/
theorem witness_ReadByteStatements (i : BitVec 3) :
    (loc (fullLocals 1 i 0) (st (.readByte .y1))).locals.readByteV = some 0x3C ∧
      (loc (fullLocals 1 i 0) (st (.readByte .y1))).locals.readByteI = some i ∧
      (st (.readByte .y1) (some 1)).pc = ⟨.readByte .y1, some 1⟩ :: [] := ⟨rfl, rfl, rfl⟩
theorem witness_WriteByteStatements (i : BitVec 3) (ack : Bit) :
    (loc (fullLocals ack i 0) (st (.writeByte .x0))).locals.writeByteI = some i ∧
      (loc (fullLocals ack i 0) (st (.writeByte .x2))).locals.writeByteAck = some ack ∧
      (st (.writeByte .x0)).pc = ⟨.writeByte .x0, none⟩ :: [] := ⟨rfl, rfl, rfl⟩
/-- The counters at the last value the loop takes and at the last value the statement covers. -/
theorem witness_RecoverStatements :
    (loc (fullLocals 0 0 0) (st (.recover .v5))).locals.recoverPulse = some 9 ∧ (9 : BitVec 4).toNat < 15 ∧
      (loc (fullLocals 1 0 0) (st (.recover .v5))).locals.recoverPulse = some 14 ∧ (14 : BitVec 4).toNat < 15 ∧
      (loc (fullLocals 0 0 0) (st (.recover .v8))).locals.recoverBurst = some 99 ∧ (99 : BitVec 7).toNat < 127 ∧
      (loc (fullLocals 1 0 0) (st (.recover .v8))).locals.recoverBurst = some 126 ∧ (126 : BitVec 7).toNat < 127 ∧
      (loc (fullLocals 0 0 0) (st (.recover .v8))).locals.recoverD = some 0 ∧
      (st (.recover .v8)).pc = ⟨.recover .v8, none⟩ :: [] := by decide
theorem witness_NewStatements :
    ({ st (.new .n0) with freq := 0 }).freq = 0 ∧ (st (.new .n0)).freq ≠ 0 ∧
      ({ st (.new .n3) with freq := 0 }).freq = 0 ∧ ({ st (.new .n3) with freq := 1 }).freq ≠ 0 ∧ (st (.new .n0)).pc = ⟨.new .n0, none⟩ :: [] ∧
      (ans [.ok 0] (st (.new .n1))).nextAnswer = .ok 0 ∧ (ans [.err ⟨9⟩] (st (.new .n2))).nextAnswer = .err ⟨9⟩ := by
  decide
/-- The data loop with no byte to move, and in a full buffer at the first index and at the length. -/
theorem witness_WriteStatements :
    let s : State := { loc (fullLocals 1 0 0) (st (.write .a2)) with wl := some Config.bufMax }
    s.locals.idx = some 0 ∧ s.wl = some Config.bufMax ∧ Config.bufMax ≤ Config.bufMax ∧ 0 ≤ Config.bufMax ∧
      (loc (fullLocals 1 0 Config.bufMax) s).locals.idx = some Config.bufMax ∧
      (st (.write .a2) (some 1)).pc = ⟨.write .a2, some 1⟩ :: [] :=
  ⟨rfl, rfl, Nat.le_refl _, Nat.zero_le _, rfl, rfl⟩
theorem witness_ReadStatements :
    let s : State := { loc (fullLocals 1 0 0) (st (.read .a2)) with rl := some Config.bufMax }
    s.locals.idx = some 0 ∧ s.rl = some Config.bufMax ∧ Config.bufMax ≤ Config.bufMax ∧ 0 ≤ Config.bufMax ∧
      (loc (fullLocals 1 0 (Config.bufMax - 1)) s).locals.idx = some (Config.bufMax - 1) ∧
      (st (.read .a2) (some 0x3C)).pc = ⟨.read .a2, some 0x3C⟩ :: [] :=
  ⟨rfl, rfl, Nat.le_refl _, Nat.zero_le _, rfl, rfl⟩
theorem witness_WriteReadStatements :
    let s : State := { loc (fullLocals 1 0 0) (st (.writeRead .a5)) with wl := some 0, rl := some Config.bufMax }
    s.locals.idx = some 0 ∧ s.wl = some 0 ∧ 0 ≤ Config.bufMax ∧ s.rl = some Config.bufMax ∧
      Config.bufMax ≤ Config.bufMax ∧ (st (.writeRead .a5) (some 0x3C)).pc = ⟨.writeRead .a5, some 0x3C⟩ :: [] :=
  ⟨rfl, rfl, Nat.zero_le _, rfl, Nat.le_refl _, rfl⟩

/-- A call of `i` with its operands in their registers, the pin environment answering as `es`. -/
def calling (i : Instr) (es : List Event) : State :=
  ans (answersFor es ++ [.ok 1]) (loc (Locals.dead.latch i) (st (entryOf i) none [⟨.write .a3, none⟩]))

/-- The hypotheses of a whole call, for every operation and every events. -/
theorem witness_calls (i : Instr) (es : List Event) :
    (calling i es).quiet ∧ (calling i es).pc = ⟨entryOf i, none⟩ :: ⟨.write .a3, none⟩ :: [] ∧
      (calling i es).answers = answersFor es ++ [.ok 1] := ⟨⟨rfl, rfl⟩, rfl, rfl⟩
theorem witness_LineOperationsRun (L : Line) (h : Nat) :
    Locals.latch (.pull L) (calling (.pull L) (pullEvents h L)).locals = (calling (.pull L) (pullEvents h L)).locals ∧
      Locals.latch (.release L) (calling (.release L) []).locals = (calling (.release L) []).locals ∧
      calleesDead .pull (calling (.pull L) []).locals ∧ calleesDead .waitClockReleased Locals.dead := by
  refine ⟨rfl, rfl, trivial, trivial⟩
theorem witness_BitOperationsRun (bit : Bit) :
    Locals.latch (.writeBit bit) (calling (.writeBit bit) []).locals = (calling (.writeBit bit) []).locals ∧
      calleesDead .writeBit (calling (.writeBit bit) []).locals ∧ calleesDead .start (calling .start []).locals ∧
      calleesDead .stop (calling .stop []).locals ∧ calleesDead .readBit (calling .readBit []).locals :=
  ⟨rfl, ⟨rfl, rfl, rfl, rfl, rfl⟩, ⟨rfl, rfl, rfl, rfl, rfl⟩, ⟨rfl, rfl, rfl, rfl, rfl⟩, ⟨rfl, rfl, rfl, rfl, rfl⟩⟩
theorem witness_ByteOperationsRun (byte : Byte) (sa : Bit) :
    Locals.latch (.writeByte byte) (calling (.writeByte byte) []).locals = (calling (.writeByte byte) []).locals ∧
      calleesDead .writeByte (calling (.writeByte byte) []).locals ∧
      Locals.latch (.readByte sa) (calling (.readByte sa) []).locals = (calling (.readByte sa) []).locals ∧
      calleesDead .readByte (calling (.readByte sa) []).locals :=
  ⟨rfl, ⟨rfl, rfl, rfl, rfl, rfl, rfl, rfl⟩, rfl, ⟨rfl, rfl, rfl, rfl, rfl, rfl, rfl⟩⟩
/-- One burst whose check reads 1, and a hundred whose checks all read 0. -/
theorem witness_RecoverRuns (es : List Event) :
    ((1 ≤ 1 ∧ 1 ≤ 100 ∧ ((1 : Bit) = 1 ∨ 1 = 100)) ∧ 1 ≤ 100 ∧ 100 ≤ 100 ∧ ((0 : Bit) = 1 ∨ 100 = 100)) ∧
      (calling .recover es).quiet ∧ (calling .recover es).pc = ⟨.recover .v0, none⟩ :: [⟨.write .a3, none⟩] ∧
      calleesDead .recover (calling .recover es).locals ∧ (calling .recover es).answers = answersFor es ++ [.ok 1] :=
  ⟨by decide, ⟨rfl, rfl⟩, rfl, ⟨rfl, rfl, rfl, rfl, rfl⟩, rfl⟩
theorem witness_NewRuns :
    (ans [.ok 0, .ok 0, .ok 1] (st (.new .n0))).quiet ∧ (st (.new .n0)).pc = [⟨.new .n0, none⟩] ∧
      (st (.new .n0)).freq ≠ 0 ∧ (ans [.ok 0, .ok 0, .ok 1] (st (.new .n0))).answers = [.ok 0, .ok 0, .ok 1] :=
  ⟨⟨rfl, rfl⟩, rfl, by decide, rfl⟩
/-- Every length up to `BUF_MAX` itself, `n` of them and the bytes of WBUF as they stand. -/
theorem witness_WriteRuns (n : Nat) (es : List Event) :
    let s : State := { ans (answersFor es ++ []) (st (.write .a0)) with wl := some n }
    s.quiet ∧ s.pc = [⟨.write .a0, none⟩] ∧ s.adr = some 0x50 ∧ s.wl = some n ∧ Config.bufMax ≤ Config.bufMax ∧
      s.locals = Locals.dead ∧ s.answers = answersFor es ++ [] := ⟨⟨rfl, rfl⟩, rfl, rfl, rfl, Nat.le_refl _, rfl, rfl⟩
theorem witness_ReadRuns (es : List Event) :
    let bytes : List Byte := List.replicate Config.bufMax 0x3C
    let s : State := { ans (answersFor es ++ []) (st (.read .a0)) with rl := some bytes.length }
    s.quiet ∧ s.pc = [⟨.read .a0, none⟩] ∧ s.adr = some 0x50 ∧ s.rl = some bytes.length ∧
      bytes.length ≤ Config.bufMax ∧ s.locals = Locals.dead ∧ s.answers = answersFor es ++ [] :=
  ⟨⟨rfl, rfl⟩, rfl, rfl, rfl, by simp, rfl, rfl⟩
theorem witness_WriteReadRuns (es : List Event) :
    let inn : List Byte := List.replicate Config.bufMax 0x3C
    let s : State := { ans (answersFor es ++ []) (st (.writeRead .a0)) with wl := some 0, rl := some inn.length }
    s.quiet ∧ s.pc = [⟨.writeRead .a0, none⟩] ∧ s.adr = some 0x50 ∧ s.wl = some 0 ∧ 0 ≤ Config.bufMax ∧
      s.rl = some inn.length ∧ inn.length ≤ Config.bufMax ∧ s.locals = Locals.dead ∧ s.answers = answersFor es ++ [] :=
  ⟨⟨rfl, rfl⟩, rfl, rfl, rfl, Nat.zero_le _, rfl, by simp, rfl, rfl⟩
/-- A bus whose lines always read 1. -/
def highByte : ByteLevels where
  data := fun _ => 1
  clock := fun _ => 1
  ninthData := 1
  ninthClock := 1
def highBus : BusLevels where
  start1 := 1
  address1 := highByte
  addressAck1 := 1
  sent := fun _ => highByte
  sentAck := fun _ => 1
  start2 := 1
  address2 := highByte
  addressAck2 := 1
  received := fun _ => highByte
  stop := 1
theorem highByte_clockHigh : highByte.clockHigh := ⟨fun _ => rfl, rfl⟩
theorem highBus_clockHigh : highBus.clockHigh :=
  ⟨rfl, rfl, rfl, highByte_clockHigh, highByte_clockHigh, fun _ => highByte_clockHigh, fun _ => highByte_clockHigh⟩
/-- The three transactions with full buffers on a bus whose lines read 1, begun with both lines released. -/
theorem witness_TransactionEdges :
    let out : List Byte := (List.range Config.bufMax).map (Memory.read .wbuf [])
    let inn : List Byte := List.replicate Config.bufMax 0x3C
    let s (p : Pos) (es : List Event) : State :=
      { ans (answersFor es) (st p) with
        drvScl := .released, drvSda := .released, wl := some out.length, rl := some inn.length }
    (∀ p es, entryLines (s p es).lines = true) ∧
      WriteBegins (s (.write .a0) (writeEvents 5 0x50 out highBus)) 0x50 out highBus ∧
      ReadBegins (s (.read .a0) (readEvents 5 0x50 inn highBus)) 0x50 inn highBus ∧
      WriteReadBegins (s (.writeRead .a0) (writeReadEvents 5 0x50 out inn highBus)) 0x50 out inn highBus := by
  refine ⟨fun _ _ => rfl, ⟨⟨rfl, rfl⟩, rfl, rfl, rfl, by simp, rfl, ?_, [], (List.append_nil _).symm⟩,
    ⟨⟨rfl, rfl⟩, rfl, rfl, rfl, by simp, rfl, [], (List.append_nil _).symm⟩,
    ⟨⟨rfl, rfl⟩, rfl, rfl, rfl, rfl, by simp, by simp, rfl, ?_, [], (List.append_nil _).symm⟩⟩ <;>
    rw [List.length_map, List.length_range] <;> rfl
/-- The other pair of line states a transaction begins in, after NEW. -/
theorem witness_TransactionEdges_new : entryLines (.unknown, .unknown) = true := by decide
theorem witness_TransactionCounts : highBus.clockHigh := highBus_clockHigh
/-- A transaction of no bytes under as many answers as steps, each of them 0. -/
theorem witness_StuckDataLineNeverEnds (n : Nat) :
    let s : State := { ans (List.replicate n (.ok 0)) (st (.writeRead .a0)) with wl := some 0, rl := some 0 }
    s.quiet ∧ s.busy = true ∧ s.live ∧ s.pc = [⟨.writeRead .a0, none⟩] ∧
      ∀ k u, k < n → run k s = .next u → (∃ v, u.nextAnswer = .ok v) ∧ (u.atStopSample → u.nextAnswer = .ok 0) := by
  intro s
  refine ⟨⟨rfl, rfl⟩, show (st (.writeRead .a0)).busy = true by decide, ⟨rfl, ?_, ?_, ?_⟩, rfl, fun k u hk hu => ?_⟩
  · intro f hf
    simp only [s, ans, st, List.mem_singleton] at hf
    subst hf
    exact ⟨rfl, fun m h => by cases h; exact Nat.zero_le _, fun m h => by cases h; exact Nat.zero_le _⟩
  · intro f hf
    cases hf
  · intro f hf
    simp only [s, ans, st, List.mem_singleton] at hf
    subst hf
    exact fun h => absurd rfl h
  · obtain ⟨m, hm, ha⟩ := run_answers hu
    have e : u.nextAnswer = .ok 0 := by
      have h : u.answers = .ok 0 :: List.replicate (n - m - 1) (.ok 0) := by
        rw [ha, ← List.replicate_succ]
        simp only [s, ans, List.drop_replicate]
        congr 1
        omega
      exact State.nextAnswer_cons h
    exact ⟨⟨0, e⟩, fun _ => e⟩
/-- A state in which STOP samples the data line. -/
theorem witness_atStopSample : (st (.release .l2) none [⟨.stop .e1, none⟩, ⟨.write .a3, none⟩]).atStopSample :=
  ⟨_, _, _, rfl⟩

/-- A WRITE in its START, about to pull the data line with both lines released: the start edge. -/
def starting : State :=
  { ans [.ok 0] (loc { Locals.dead with pullL := some .sda, startD := some 1 }
      (st (.pull .p0) none [⟨.start .s3, none⟩, ⟨.write .a0, none⟩])) with
    drvScl := .released, drvSda := .released, halfUs := 5 }
/-- A WRITE in its STOP, about to release the data line with the clock released: the stop edge. -/
def stopping : State :=
  { ans [.ok 1] (loc { Locals.dead with releaseL := some .sda }
      (st (.release .l0) none [⟨.stop .e1, none⟩, ⟨.write .a3, none⟩])) with
    drvScl := .released }
/-- A READ about to sample the acknowledge bit of its address byte. -/
def sampling : State :=
  { ans [.ok 1] (loc { Locals.dead with writeByteByte := some 0xA1, writeByteI := some 0 }
      (st (.readDataIdle .i2) none [⟨.readBit .b2, none⟩, ⟨.writeByte .x1, none⟩, ⟨.read .a1, none⟩])) with
    drvScl := .released, drvSda := .released, wl := some 0, rl := some 0 }
/-- A WRITE about to end. -/
def ending : State := { st (.write .a4) with drvScl := .released, drvSda := .released }

/-- A run of a step goes on, and what it leads to. -/
theorem witness_steps_go_on :
    look (fun t => (t.busy, top t)) (step starting) = some (true, some (.pull .p1)) ∧
      look (fun t => (t.busy, top t)) (step stopping) = some (true, some (.release .l1)) ∧
      look (fun t => (t.busy, top t)) (step sampling) = some (true, some (.readDataIdle .i3)) ∧
      look (fun t => (t.busy, top t)) (step ending) = some (false, none) := by decide
theorem witness_ReservedBitsStayZero : starting.reservedInv := by unfold State.reservedInv; decide
theorem witness_BusyExactlyWhileRunning : starting.busyInv ∧ idle.busyInv := by
  unfold State.busyInv; decide
theorem witness_ConfiguredFrequencyStays :
    ({ st (.new .n2) with status := 2, halfUs := 0 } : State).configInv ∧ starting.configInv := by
  unfold State.configInv State.busyInv; decide
theorem witness_BuffersStayCanonical : sampling.buffersInv := ⟨Memory.wf_nil _, Memory.wf_nil _⟩
theorem witness_StackStaysACallChain :
    stackWf starting.pc = true ∧ stackWf stopping.pc = true ∧ stackWf sampling.pc = true := by decide
/-- The deepest stack. -/
theorem witness_StackDepthAndNoRepeat : stackWf sampling.pc = true ∧ sampling.pc.length = 4 := by decide
theorem witness_NoStepFaults : sampling.live := by
  refine ⟨by decide, ?_, ?_, ?_⟩
  · intro f hf
    simp only [sampling, ans, loc, st, List.mem_cons, List.not_mem_nil, or_false] at hf
    rcases hf with rfl | rfl | rfl | rfl <;> refine ⟨by decide, ?_⟩ <;> try trivial
    intro n hn
    cases hn
    exact Nat.zero_le _
  · intro f hf
    simp only [sampling, ans, loc, st, List.tail, List.mem_cons, List.not_mem_nil, or_false] at hf
    rcases hf with rfl | rfl | rfl <;> trivial
  · intro f hf
    simp only [sampling, ans, loc, st, List.mem_cons, List.not_mem_nil, or_false] at hf
    rcases hf with rfl | rfl | rfl | rfl <;> exact fun h => absurd rfl h
theorem witness_NothingCarriesOver : ending.idleInv ∧ ending.busyInv ∧ idle.idleInv ∧ idle.busyInv := by
  unfold State.idleInv State.busyInv; decide
theorem witness_SamplesOnlyReleasedLines :
    (stackWf sampling.pc = true ∧ sampling.sampleInv ∧
      look (fun t => t.trace) (step sampling) = some [.getVal .sda (.ok 1)]) ∧
      look (fun t => t.trace)
        (step { starting with pc := ⟨.pull .p1, none⟩ :: starting.pc.tail, drvSda := .outUnset }) = some [.setVal .sda 0 .ok] := by
  refine ⟨⟨by decide, ?_, by decide⟩, by decide⟩
  exact fun _ => rfl
theorem witness_DataLineMovesOnlyUnderLowClock_start :
    starting.orderInv ∧ starting.busyInv ∧ (∀ f ∈ starting.pc, f.pos.op ≠ .new) ∧
      look (fun t => (t.drvSda, t.busy)) (step starting) = some (.outUnset, true) := by
  unfold State.busyInv
  exact ⟨⟨by decide, rfl, rfl⟩, by decide, by decide, by decide⟩
theorem witness_DataLineMovesOnlyUnderLowClock_stop :
    stopping.orderInv ∧ stopping.busyInv ∧ look (fun t => (t.drvSda, t.busy)) (step stopping) = some (.released, true) := by
  unfold State.busyInv
  exact ⟨⟨by decide, rfl, rfl⟩, by decide, by decide⟩
theorem witness_DataLineMovesOnlyUnderLowClock_end :
    ending.orderInv ∧ ending.busyInv ∧ look (fun t => (t.responses, t.lines)) (step ending) = some ([.ok], (.released, .released)) ∧
      idle.orderInv ∧ idle.busyInv ∧ idle.pc = [] ∧ entryLines idle.lines = true := by
  unfold State.busyInv
  exact ⟨⟨by decide, rfl⟩, by decide, by decide, ⟨by decide, trivial⟩, by decide, by decide, by decide⟩
theorem witness_WhatTheEngineWrites :
    look (fun t => t.cmd) (exec (.write 0x50) idle) = some 0x00000502 ∧
      look (fun t => t.cmd) (exec .readDataIdle sampling) = some 0 ∧ Instr.readDataIdle ≠ .new := by decide
theorem witness_AtMostOneEventAStep :
    look (fun t => t.trace) (exec (.pull .sda) starting) = some [.setDir .sda .output .ok] ∧
      look (fun t => t.trace) (exec (.write 0x50) idle) = some [] := by decide
theorem witness_DrvSteersNothing :
    starting.eraseDrv = State.eraseDrv { starting with drvScl := .unknown, drvSda := .pulled } := rfl
theorem witness_AcknowledgeSteersNothing :
    State.eraseAck (loc (fullLocals 0 0 1) (st (.write .a2))) =
      State.eraseAck (loc { fullLocals 0 0 1 with a := some 1 } (st (.write .a2))) := rfl
theorem witness_HostCannotDisturbACommand :
    starting.busy = true ∧ HostAction.readReg .errKind ≠ .hardwareReset := by decide
theorem witness_ReceivedByteFrame :
    (loc (fullLocals 1 0 0) (st (.read .a2) (some 0x3C))).locals.idx = some 0 ∧
      (loc (fullLocals 1 0 Config.bufMax) (st (.read .a2) (some 0x3C))).locals.idx = some Config.bufMax ∧
      (loc (fullLocals 1 0 0) (st (.read .a2) (some 0x3C))).pc = ⟨.read .a2, some 0x3C⟩ :: [] ∧
      (loc (fullLocals 1 0 0) (st (.writeRead .a5) (some 0x3C))).pc = ⟨.writeRead .a5, some 0x3C⟩ :: [] :=
  ⟨rfl, rfl, rfl, rfl⟩

end Sys2Proof.Tests
end

section
/-! SUPPORT. Which words `decodeCommand` accepts, and the settlement of R79's rule on illegal command words. -/

namespace Sys2Proof

/-- `zeroFrom` speaks of the high field the spec names by its bit range (R71, R79). -/
theorem zeroFrom_iff_extractLsb' {n : Nat} (hn : n ≤ 32) (w : Word) :
    zeroFrom n w = true ↔ w.extractLsb' n (32 - n) = 0 := by
  have hlt : w.toNat / 2 ^ n < 2 ^ (32 - n) :=
    Nat.div_lt_of_lt_mul (by rw [← Nat.pow_add, Nat.add_sub_cancel' hn]; exact w.isLt)
  simp only [zeroFrom, beq_iff_eq, ← BitVec.toNat_inj, BitVec.toNat_ushiftRight, BitVec.extractLsb'_toNat,
    Nat.shiftRight_eq_div_pow, Nat.mod_eq_of_lt hlt, BitVec.ofNat_eq_ofNat, BitVec.toNat_ofNat, Nat.zero_mod]

theorem ifZeroFrom_eq_ok_iff {n : Nat} {w : Word} {i j : Instr} :
    ifZeroFrom n w i = .ok j ↔ zeroFrom n w = true ∧ i = j := by
  unfold ifZeroFrom
  split <;> simp [*]

/-- A word decodes only to an operation whose code it carries (R70, R73). -/
theorem opcode_of_decode {w : Word} {i : Instr} (h : decode w = .ok i) : i.opcode = opField w := by
  refine BitVec.eq_of_toNat_eq ?_
  unfold decode at h
  split at h
  case h_1 hop =>
    split at h
    · split at h
      · cases h; exact hop.symm
      · cases h
    · cases h
  case h_16 => cases h
  all_goals
    obtain ⟨-, rfl⟩ := ifZeroFrom_eq_ok_iff.mp h
    exact Eq.symm ‹_›

/-- The commands are the operations with codes 1 to 4 (R72, R73). -/
theorem Instr.isCommand_iff_opcode (i : Instr) : i.isCommand = true ↔ i.opcode.toNat ≤ 4 := by
  cases i <;> simp [Instr.isCommand, Instr.opcode]

/-- The four commands (R72). -/
theorem Instr.isCommand_iff (i : Instr) :
    i.isCommand = true ↔ i = .new ∨ (∃ adr, i = .write adr) ∨ (∃ adr, i = .read adr) ∨ ∃ adr, i = .writeRead adr := by
  cases i <;> simp [Instr.isCommand]

theorem decodeCommand_eq_some_iff {w : Word} {i : Instr} :
    decodeCommand w = some i ↔ decode w = .ok i ∧ i.isCommand = true := by
  unfold decodeCommand
  split
  case h_1 j hj =>
    simp only [hj, Except.ok.injEq, Option.ite_none_right_eq_some, Option.some.injEq]
    constructor
    · rintro ⟨hc, rfl⟩; exact ⟨rfl, hc⟩
    · rintro ⟨rfl, hc⟩; exact ⟨hc, rfl⟩
  case h_2 e he => simp [he]

/-! ### The command register, by operation code (R72, R73, R79) -/

theorem decodeCommand_op_zero {w : Word} (hop : opField w = 0) : decodeCommand w = none := by
  simp [decodeCommand, decode, hop]

theorem decodeCommand_op_new {w : Word} (hop : opField w = 1) :
    decodeCommand w = if zeroFrom 11 w = true ∧ addrField w = 0 then some .new else none := by
  by_cases hz : zeroFrom 11 w = true
  · by_cases ha : addrField w = 0#7 <;> simp [decodeCommand, decode, hop, hz, ha, Instr.isCommand]
  · simp [decodeCommand, decode, hop, hz]

/-- The one check that WRITE, READ and WRITE_READ make of their word (format H, R71). -/
theorem decodeCommand_of_ifZeroFrom {n : Nat} {w : Word} {i : Instr} (hdec : decode w = ifZeroFrom n w i)
    (hcmd : i.isCommand = true) : decodeCommand w = if zeroFrom n w = true then some i else none := by
  by_cases hz : zeroFrom n w = true <;> simp [decodeCommand, hdec, ifZeroFrom, hz, hcmd]

theorem decodeCommand_op_write {w : Word} (hop : opField w = 2) :
    decodeCommand w = if zeroFrom 11 w = true then some (.write (addrField w)) else none :=
  decodeCommand_of_ifZeroFrom (by simp [decode, hop]) rfl

theorem decodeCommand_op_read {w : Word} (hop : opField w = 3) :
    decodeCommand w = if zeroFrom 11 w = true then some (.read (addrField w)) else none :=
  decodeCommand_of_ifZeroFrom (by simp [decode, hop]) rfl

theorem decodeCommand_op_writeRead {w : Word} (hop : opField w = 4) :
    decodeCommand w = if zeroFrom 11 w = true then some (.writeRead (addrField w)) else none :=
  decodeCommand_of_ifZeroFrom (by simp [decode, hop]) rfl

theorem decodeCommand_op_internal {w : Word} (hop : 5 ≤ (opField w).toNat) : decodeCommand w = none := by
  rw [Option.eq_none_iff_forall_ne_some]
  intro i hi
  obtain ⟨hdec, hcmd⟩ := decodeCommand_eq_some_iff.mp hi
  rw [i.isCommand_iff_opcode, opcode_of_decode hdec] at hcmd
  omega

/-- The operation code is the reserved one, a command's, or an internal operation's (R73). -/
theorem opField_cases (w : Word) :
    opField w = 0 ∨ opField w = 1 ∨ opField w = 2 ∨ opField w = 3 ∨ opField w = 4 ∨ 5 ≤ (opField w).toNat := by
  generalize opField w = op
  revert op
  decide

/-- R79: the words that are no command. -/
theorem decodeCommand_eq_none_iff (w : Word) :
    decodeCommand w = none ↔
      opField w = 0 ∨ 5 ≤ (opField w).toNat ∨ zeroFrom 11 w = false ∨ (opField w = 1 ∧ addrField w ≠ 0) := by
  rcases opField_cases w with h | h | h | h | h | h
  · simp [decodeCommand_op_zero h, h]
  · cases hz : zeroFrom 11 w <;> simp [decodeCommand_op_new h, h, hz]
  · simp [decodeCommand_op_write h, h]
  · simp [decodeCommand_op_read h, h]
  · simp [decodeCommand_op_writeRead h, h]
  · simp [decodeCommand_op_internal h, h]

end Sys2Proof

namespace Sys2Proof.Machine

/-- R79, R164: an engine that is not busy refuses a word that is no command. -/
theorem hostAccess_writeCmd_illegal {w : Word} {s : State} (hbusy : s.busy = false) (hw : decodeCommand w = none) :
    hostAccess (.writeReg .cmd w) s = .next (s.refuse .illegal) := by
  simp [hostAccess, State.writeReg, State.writeCmd, hbusy, hw]

end Sys2Proof.Machine

open Sys2Proof Sys2Proof.Machine

/-- Settles O5: the words `decodeCommand` rejects are found by operation code, and what it accepts is a command. -/
theorem illegalCommandWords : Obligations.IllegalCommandWords := by
  refine ⟨fun w => ?_, fun w s hbusy hw => hostAccess_writeCmd_illegal hbusy hw, fun w i hi => ?_⟩
  · have hzero : zeroFrom 11 w = false ↔ w.extractLsb' 11 21 ≠ 0 := by
      rw [← Bool.not_eq_true, ne_eq, zeroFrom_iff_extractLsb' (by decide)]
    rw [decodeCommand_eq_none_iff, hzero]
    rfl
  · obtain ⟨-, hcmd⟩ := decodeCommand_eq_some_iff.mp hi
    exact i.isCommand_iff.mp hcmd
end

section
/-! SUPPORT. The line operations, statement by statement (R90 to R93): what each labelled statement runs, what the pin
primitives and the delay then leave of the state, and the settlement of O18 to O21. -/

namespace Sys2Proof.Machine

/-! ### Statements that issue one event, whatever operation they belong to -/

/-- A `goto` writes the top frame and nothing else (R10). -/
theorem State.goto_of_pc {s : State} {f : Frame} {rest : List Frame} (hpc : s.pc = f :: rest) (p : Pos) :
    s.goto p = { s with pc := ⟨p, none⟩ :: rest } := by
  simp [State.goto, hpc]

section

variable {i : Instr} {s : State} {p next : Pos} {r : Option Byte} {rest : List Frame}

/-- R11: a statement that is `PinSetDir`. -/
theorem drivesThen_of_pinSetDir {L : Line} {d : Dir}
    (he : Does i s p r rest (s.pinSetDir L d (State.goto next))) :
    DrivesThen i s p r rest L (.setDir L d) (Dir.drv d) next := by
  refine ⟨fun v hok hpc => ?_, fun k herr hpc => ?_⟩
  · rw [he hpc, State.pinSetDir_ok hok, State.goto_of_pc (by simpa using hpc)]
    rfl
  · rw [he hpc, State.pinSetDir_err herr]
    rfl

/-- R11: a statement that is `PinSetVal`. -/
theorem drivesThen_of_pinSetVal {L : Line} (he : Does i s p r rest (s.pinSetVal L (State.goto next))) :
    DrivesThen i s p r rest L (.setVal L 0) .pulled next := by
  refine ⟨fun v hok hpc => ?_, fun k herr hpc => ?_⟩
  · rw [he hpc, State.pinSetVal_ok hok, State.goto_of_pc (by simpa using hpc)]
    rfl
  · rw [he hpc, State.pinSetVal_err herr]
    rfl

/-- R11: a statement that is `PinGetVal`, the level going to the register that `put` writes. -/
theorem samplesThen_of_pinGetVal {L : Line} (put : Bit → Locals → Locals)
    (he : Does i s p r rest (s.pinGetVal L fun v t => (t.setLocals (put v t.locals)).goto next)) :
    SamplesThen i s p r rest L (fun v => put v s.locals) next := by
  refine ⟨fun v hok hpc => ?_, fun k herr hpc => ?_⟩
  · rw [he hpc, State.pinGetVal_ok hok, State.goto_of_pc (by simpa using hpc)]
    rfl
  · rw [he hpc, State.pinGetVal_err herr]
    rfl

/-- R11: a statement that is `Delay`. -/
theorem delaysThen_of_delay {us : Nat} (he : Does i s p r rest ((s.delay us).goto next)) :
    DelaysThen i s p r rest us next := fun hpc => by
  rw [he hpc, State.goto_of_pc (by simpa using hpc)]
  rfl

end

/-! ### What each label runs -/

section

variable {L : Line} {s : State} {r : Option Byte} {rest : List Frame}

/-! #### PULL (R90) -/

theorem exec_pull_p0 : Does (.pull L) s (.pull .p0) r rest (s.pinSetDir L .output (State.goto (.pull .p1))) :=
  fun hpc => by simp only [exec, execPull, hpc]

theorem exec_pull_p1 : Does (.pull L) s (.pull .p1) r rest (s.pinSetVal L (State.goto (.pull .p2))) :=
  fun hpc => by simp only [exec, execPull, hpc]

theorem exec_pull_p2 : Does (.pull L) s (.pull .p2) r rest (s.delayHalf.goto (.pull .p3)) :=
  fun hpc => by simp only [exec, execPull, hpc]

theorem exec_pull_p3 : Does (.pull L) s (.pull .p3) r rest (s.ret noValue) :=
  fun hpc => by simp only [exec, execPull, hpc]

/-! #### RELEASE (R91) -/

theorem exec_release_l0 :
    Does (.release L) s (.release .l0) r rest (s.pinSetDir L .input (State.goto (.release .l1))) :=
  fun hpc => by simp only [exec, execRelease, hpc]

theorem exec_release_l1 : Does (.release L) s (.release .l1) r rest (s.delayHalf.goto (.release .l2)) :=
  fun hpc => by simp only [exec, execRelease, hpc]

theorem exec_release_l2 :
    Does (.release L) s (.release .l2) r rest
      (s.pinGetVal L fun v t => (t.setLocals { t.locals with releaseV := some v }).goto (.release .l3)) :=
  fun hpc => by simp only [exec, execRelease, hpc]

theorem exec_release_l3 {v : Bit} (hv : s.locals.releaseV = some v) :
    Does (.release L) s (.release .l3) r rest (s.ret (ofBit v)) :=
  fun hpc => by simp only [exec, execRelease, hpc, hv, need_some]

/-! #### WAIT_CLOCK_RELEASED (R92) -/

theorem exec_waitClockReleased_w0 :
    Does .waitClockReleased s (.waitClockReleased .w0) r rest
      (s.pinSetDir .scl .input (State.goto (.waitClockReleased .w1))) :=
  fun hpc => by simp only [exec, execWaitClockReleased, hpc]

theorem exec_waitClockReleased_w1 :
    Does .waitClockReleased s (.waitClockReleased .w1) r rest (s.delayHalf.goto (.waitClockReleased .w2)) :=
  fun hpc => by simp only [exec, execWaitClockReleased, hpc]

theorem exec_waitClockReleased_w2 :
    Does .waitClockReleased s (.waitClockReleased .w2) r rest
      (s.pinGetVal .scl fun v t =>
        (t.setLocals { t.locals with waitV := some v }).goto (.waitClockReleased .w3)) :=
  fun hpc => by simp only [exec, execWaitClockReleased, hpc]

/-- R92, W3, the clock still held low: the long wait. -/
theorem exec_waitClockReleased_w3_low (hv : s.locals.waitV = some 0) :
    Does .waitClockReleased s (.waitClockReleased .w3) r rest
      ((s.delay Config.tStretchUs).goto (.waitClockReleased .w4)) :=
  fun hpc => by simp only [exec, execWaitClockReleased, hpc, hv, need_some, if_true]

/-- R92, W3, the clock released: no event. -/
theorem exec_waitClockReleased_w3_high (hv : s.locals.waitV = some 1) :
    Does .waitClockReleased s (.waitClockReleased .w3) r rest (s.goto (.waitClockReleased .w4)) :=
  fun hpc => by simp only [exec, execWaitClockReleased, hpc, hv, need_some, if_neg (show (1 : Bit) ≠ 0 by decide)]

theorem exec_waitClockReleased_w4 :
    Does .waitClockReleased s (.waitClockReleased .w4) r rest (s.delayHalf.goto (.waitClockReleased .w5)) :=
  fun hpc => by simp only [exec, execWaitClockReleased, hpc]

theorem exec_waitClockReleased_w5 : Does .waitClockReleased s (.waitClockReleased .w5) r rest (s.ret noValue) :=
  fun hpc => by simp only [exec, execWaitClockReleased, hpc]

/-! #### READ_DATA_IDLE (R93) -/

theorem exec_readDataIdle_i0 :
    Does .readDataIdle s (.readDataIdle .i0) r rest (s.pinSetDir .sda .input (State.goto (.readDataIdle .i1))) :=
  fun hpc => by simp only [exec, execReadDataIdle, hpc]

theorem exec_readDataIdle_i1 : Does .readDataIdle s (.readDataIdle .i1) r rest (s.delayHalf.goto (.readDataIdle .i2)) :=
  fun hpc => by simp only [exec, execReadDataIdle, hpc]

theorem exec_readDataIdle_i2 :
    Does .readDataIdle s (.readDataIdle .i2) r rest
      (s.pinGetVal .sda fun v t => (t.setLocals { t.locals with idleV := some v }).goto (.readDataIdle .i3)) :=
  fun hpc => by simp only [exec, execReadDataIdle, hpc]

theorem exec_readDataIdle_i3 {v : Bit} (hv : s.locals.idleV = some v) :
    Does .readDataIdle s (.readDataIdle .i3) r rest (s.ret (ofBit v)) :=
  fun hpc => by simp only [exec, execReadDataIdle, hpc, hv, need_some]

end

end Sys2Proof.Machine

open Sys2Proof Sys2Proof.Machine

/-- Settles O18: each label of PULL runs one pin primitive, the delay or the return. -/
theorem pullStatements : Obligations.PullStatements := by
  intro L s r rest
  refine ⟨?word, ?p0, ?p1, ?p2, ?p3⟩
  case word => cases L <;> rfl
  case p0 => exact drivesThen_of_pinSetDir exec_pull_p0
  case p1 => exact drivesThen_of_pinSetVal exec_pull_p1
  case p2 => exact delaysThen_of_delay exec_pull_p2
  case p3 => exact exec_pull_p3

/-- Settles O19: each label of RELEASE runs one pin primitive, the delay or the return of the sampled level. -/
theorem releaseStatements : Obligations.ReleaseStatements := by
  intro L s r rest
  refine ⟨?word, ?l0, ?l1, ?l2, ?l3⟩
  case word => cases L <;> rfl
  case l0 => exact drivesThen_of_pinSetDir exec_release_l0
  case l1 => exact delaysThen_of_delay exec_release_l1
  case l2 => exact samplesThen_of_pinGetVal (fun v l => { l with releaseV := some v }) exec_release_l2
  case l3 => exact fun v hv => exec_release_l3 hv

/-- Settles O20: W2 is the one sample; at W3 its level alone decides whether the long wait is issued. -/
theorem waitClockReleasedStatements : Obligations.WaitClockReleasedStatements := by
  intro s r rest
  refine ⟨?word, ?w0, ?w1, ?w2, ?w3low, ?w3high, ?w4, ?w5⟩
  case word => rfl
  case w0 => exact drivesThen_of_pinSetDir exec_waitClockReleased_w0
  case w1 => exact delaysThen_of_delay exec_waitClockReleased_w1
  case w2 => exact samplesThen_of_pinGetVal (fun v l => { l with waitV := some v }) exec_waitClockReleased_w2
  case w3low => exact fun hv => delaysThen_of_delay (exec_waitClockReleased_w3_low hv)
  case w3high => exact fun hv hpc => by rw [exec_waitClockReleased_w3_high hv hpc, State.goto_of_pc hpc]
  case w4 => exact delaysThen_of_delay exec_waitClockReleased_w4
  case w5 => exact exec_waitClockReleased_w5

/-- Settles O21: each label of READ_DATA_IDLE runs one pin primitive, the delay or the return of the sampled level. -/
theorem readDataIdleStatements : Obligations.ReadDataIdleStatements := by
  intro s r rest
  refine ⟨?word, ?i0, ?i1, ?i2, ?i3⟩
  case word => rfl
  case i0 => exact drivesThen_of_pinSetDir exec_readDataIdle_i0
  case i1 => exact delaysThen_of_delay exec_readDataIdle_i1
  case i2 => exact samplesThen_of_pinGetVal (fun v l => { l with idleV := some v }) exec_readDataIdle_i2
  case i3 => exact fun v hv => exec_readDataIdle_i3 hv
end

section
/-! SUPPORT. What one statement reports at the ports (R12, R152, R160): the event it appends to the trace, the response
it gives, and the whole state a fault leaves; with it the settlement of O17. -/

namespace Sys2Proof.Machine

/-! ### Outcomes that meet a predicate -/

/-- The next state, if there is one, meets `P`. -/
def Leads (P : State → Prop) : Out → Prop
  | .next t => P t
  | .fault _ => True
  | .refused _ => True

theorem Leads.of_next {P : State → Prop} {o : Out} {t : State} (h : Leads P o) (ho : o = .next t) : P t := by
  subst ho
  exact h

theorem leads_need {P : State → Prop} {α : Type} {v : Option α} {k : α → Out} (hk : ∀ a, Leads P (k a)) :
    Leads P (need v k) := by
  cases v with
  | none => trivial
  | some a => exact hk a

theorem leads_callStmt {P : State → Prop} {r : Option Byte} {c : Instr} {k : Byte → State → Out} {s : State}
    (hcall : P (s.call c)) (hk : ∀ v, Leads P (k v s)) : Leads P (s.callStmt r c k) := by
  cases r with
  | none => exact hcall
  | some v => exact hk v

/-! ### What a statement can report -/

/-- What a statement, a call or an issue of `i` that leads from `s` to `t` tells the two ports. -/
inductive Reports (i : Instr) (s t : State) : Prop where
  /-- No event and no response. -/
  | silent (htrace : t.trace = s.trace) (hresp : t.responses = s.responses)
  /-- An event that did not fail. -/
  | event (e : Event) (hok : ∀ k, e.answerOf ≠ some (.err k)) (htrace : t.trace = e :: s.trace)
      (hresp : t.responses = s.responses)
  /-- The normal end of the command (R137). -/
  | ended (htrace : t.trace = s.trace) (hresp : t.responses = .ok :: s.responses)
  /-- An event that failed: PinFault (R151, R160). -/
  | pinFault (e : Event) (k : PErr) (herr : e.answerOf = some (.err k))
      (h : t = State.afterPinFault k
        { s.issued e with drvScl := (e.lines s.lines).1, drvSda := (e.lines s.lines).2 })
  /-- The zero test of NEW: DivFault (R130, R152). -/
  | divFault (hi : i = .new) (hfreq : s.freq = 0) (hpc : ∃ r rest, s.pc = ⟨.new .n0, r⟩ :: rest)
      (h : t = s.raise .divFault)
  /-- A command refused (R164). -/
  | refused (r : RefuseReason) (htrace : t.trace = s.trace) (hresp : t.responses = .refused r :: s.responses)
  /-- A command accepted (R72): its trace begins. -/
  | accepted (htrace : t.trace = []) (hresp : t.responses = s.responses)

section

variable {i : Instr} {s u : State}

/-! ### The shared operations -/

theorem goto_reports {p : Pos} (htrace : u.trace = s.trace) (hresp : u.responses = s.responses) :
    Reports i s (u.goto p) := .silent htrace hresp

theorem call_reports {c : Instr} (htrace : u.trace = s.trace) (hresp : u.responses = s.responses) :
    Reports i s (u.call c) := .silent htrace hresp

theorem tailcall_reports {c : Instr} : Reports i s (s.tailcall c) := by
  cases hpc : s.pc with
  | nil => exact .silent (by simp [State.tailcall, hpc]) (by simp [State.tailcall, hpc])
  | cons f rest => rw [State.tailcall_top hpc]; exact .silent rfl rfl

theorem ret_reports {v : Byte} : Reports i s (s.ret v) := by
  match hpc : s.pc with
  | [] => exact .silent (by simp [State.ret, hpc]) (by simp [State.ret, hpc])
  | [f] => rw [State.ret_bottom hpc]; exact .ended rfl rfl
  | f :: g :: rest => rw [State.ret_caller hpc]; exact .silent rfl rfl

theorem delay_goto_reports {us : Nat} {p : Pos} : Reports i s ((s.delay us).goto p) :=
  .event (.delay us) (fun _ h => nomatch h) rfl rfl

theorem issue_reports {c : Instr} : Reports i s (s.issue c) := by
  rcases State.issue_cases c s with ⟨r, -, h⟩ | ⟨-, h⟩ <;> rw [h]
  · exact .refused r rfl rfl
  · obtain ⟨-, -, htrace, -⟩ := State.accept_fields c s
    exact .accepted htrace (by unfold State.accept; split <;> rfl)

theorem callStmt_goto_reports {r : Option Byte} {c : Instr} {p : Pos} :
    Leads (Reports i s) (s.callStmt r c fun _ t => .next (t.goto p)) :=
  leads_callStmt (call_reports rfl rfl) fun _ => goto_reports rfl rfl

/-! ### The pin primitives (R11) -/

theorem pinExport_reports {L : Line} {p : Pos} : Reports i s (s.pinExport L (State.goto p)) := by
  rcases s.nextAnswer_cases with ⟨v, hv⟩ | ⟨k, hk⟩
  · rw [State.pinExport_ok hv]
    exact .event (.claim L .ok) (fun _ h => nomatch h) rfl rfl
  · rw [State.pinExport_err hk]
    exact .pinFault (.claim L (.err k)) k rfl (by cases L <;> rfl)

theorem pinSetDir_reports {L : Line} {d : Dir} {p : Pos} : Reports i s (s.pinSetDir L d (State.goto p)) := by
  rcases s.nextAnswer_cases with ⟨v, hv⟩ | ⟨k, hk⟩
  · rw [State.pinSetDir_ok hv]
    exact .event (.setDir L d .ok) (fun _ h => nomatch h) rfl rfl
  · rw [State.pinSetDir_err hk]
    exact .pinFault (.setDir L d (.err k)) k rfl (by cases L <;> cases d <;> rfl)

theorem pinSetVal_reports {L : Line} {p : Pos} : Reports i s (s.pinSetVal L (State.goto p)) := by
  rcases s.nextAnswer_cases with ⟨v, hv⟩ | ⟨k, hk⟩
  · rw [State.pinSetVal_ok hv]
    exact .event (.setVal L 0 .ok) (fun _ h => nomatch h) rfl rfl
  · rw [State.pinSetVal_err hk]
    exact .pinFault (.setVal L 0 (.err k)) k rfl (by cases L <;> rfl)

theorem pinGetVal_reports {L : Line} {put : Bit → State → Locals} {p : Pos} :
    Reports i s (s.pinGetVal L fun v t => (t.setLocals (put v t)).goto p) := by
  rcases s.nextAnswer_cases with ⟨v, hv⟩ | ⟨k, hk⟩
  · rw [State.pinGetVal_ok hv]
    exact .event (.getVal L (.ok v)) (fun _ h => nomatch h) rfl rfl
  · rw [State.pinGetVal_err hk]
    exact .pinFault (.getVal L (.err k)) k rfl rfl

/-! ### The loops of the transaction commands -/

theorem sendAddress_reports {r : Option Byte} {adr : Addr} {rw : Bit} {next : Pos} :
    Leads (Reports i s) (s.sendAddress r adr rw next) :=
  leads_callStmt (call_reports rfl rfl) fun _ => goto_reports rfl rfl

theorem sendLoop_reports {r : Option Byte} {here next : Pos} :
    Leads (Reports i s) (s.sendLoop r here next) := by
  refine leads_need fun idx => ?_
  cases r with
  | none =>
    refine leads_need fun wl => ?_
    split
    · split
      · exact call_reports rfl rfl
      · trivial
    · exact goto_reports rfl rfl
  | some v => exact goto_reports rfl rfl

theorem receiveLoop_reports {r : Option Byte} {here next : Pos} :
    Leads (Reports i s) (s.receiveLoop r here next) := by
  refine leads_need fun idx => ?_
  cases r with
  | none =>
    refine leads_need fun rl => ?_
    split
    · exact call_reports rfl rfl
    · exact goto_reports rfl rfl
  | some v =>
    dsimp only
    split
    · exact goto_reports rfl rfl
    · trivial

end

/-! ### The statements of each operation, label by label -/

theorem execNew_reports (s : State) : Leads (Reports .new s) (execNew s) := by
  unfold execNew
  split
  next l r rest hpc =>
    cases l with
    | n0 =>
      dsimp only [Leads]
      split
      · exact .divFault rfl ‹_› ⟨r, rest, hpc⟩ rfl
      · exact goto_reports rfl rfl
    | n1 | n2 => exact pinExport_reports
    | n3 => exact goto_reports rfl rfl
    | n4 => exact ret_reports
  next => exact issue_reports

theorem execWrite_reports (adr : Addr) (s : State) : Leads (Reports (.write adr) s) (execWrite adr s) := by
  unfold execWrite
  split
  next l _ _ _ =>
    cases l with
    | a0 | a3 => exact callStmt_goto_reports
    | a1 => exact sendAddress_reports
    | a2 => exact sendLoop_reports
    | a4 => exact ret_reports
  next => exact issue_reports

theorem execRead_reports (adr : Addr) (s : State) : Leads (Reports (.read adr) s) (execRead adr s) := by
  unfold execRead
  split
  next l _ _ _ =>
    cases l with
    | a0 | a3 => exact callStmt_goto_reports
    | a1 => exact sendAddress_reports
    | a2 => exact receiveLoop_reports
    | a4 => exact ret_reports
  next => exact issue_reports

theorem execWriteRead_reports (adr : Addr) (s : State) :
    Leads (Reports (.writeRead adr) s) (execWriteRead adr s) := by
  unfold execWriteRead
  split
  next l _ _ _ =>
    cases l with
    | a0 | a3 | a6 => exact callStmt_goto_reports
    | a1 | a4 => exact sendAddress_reports
    | a2 => exact sendLoop_reports
    | a5 => exact receiveLoop_reports
    | a7 => exact ret_reports
  next => exact issue_reports

theorem execStart_reports (s : State) : Leads (Reports .start s) (execStart s) := by
  unfold execStart
  split
  next l _ _ _ =>
    cases l with
    | s0 => exact leads_callStmt (call_reports rfl rfl) fun _ => goto_reports rfl rfl
    | s1 =>
      refine leads_need fun d => ?_
      split
      · exact callStmt_goto_reports
      · exact goto_reports rfl rfl
    | s2 | s3 | s4 => exact callStmt_goto_reports
    | s5 => exact ret_reports
  next => exact call_reports rfl rfl

theorem execStop_reports (s : State) : Leads (Reports .stop s) (execStop s) := by
  unfold execStop
  split
  next l _ _ _ =>
    cases l with
    | e0 => exact callStmt_goto_reports
    | e1 => exact leads_callStmt (call_reports rfl rfl) fun _ => goto_reports rfl rfl
    | e2 =>
      refine leads_need fun d => ?_
      dsimp only [Leads]
      split
      · exact tailcall_reports
      · exact goto_reports rfl rfl
    | e3 => exact ret_reports
  next => exact call_reports rfl rfl

theorem execReadBit_reports (s : State) : Leads (Reports .readBit s) (execReadBit s) := by
  unfold execReadBit
  split
  next l _ _ _ =>
    cases l with
    | b0 | b1 | b3 | b4 => exact callStmt_goto_reports
    | b2 =>
      dsimp only
      split
      · exact leads_callStmt (call_reports rfl rfl) fun _ => goto_reports rfl rfl
      · exact pinGetVal_reports
    | b5 => exact leads_need fun _ => ret_reports
  next => exact call_reports rfl rfl

theorem execWriteBit_reports (bit : Bit) (s : State) : Leads (Reports (.writeBit bit) s) (execWriteBit bit s) := by
  unfold execWriteBit
  split
  next l _ _ _ =>
    cases l with
    | c0 | c1 | c2 | c3 => exact callStmt_goto_reports
    | c4 => exact ret_reports
  next => exact call_reports rfl rfl

theorem execWriteByte_reports (byte : Byte) (s : State) :
    Leads (Reports (.writeByte byte) s) (execWriteByte byte s) := by
  unfold execWriteByte
  split
  next l _ _ _ =>
    cases l with
    | x0 =>
      refine leads_need fun n => leads_callStmt (call_reports rfl rfl) fun _ => ?_
      split <;> exact goto_reports rfl rfl
    | x1 => exact leads_callStmt (call_reports rfl rfl) fun _ => goto_reports rfl rfl
    | x2 => exact leads_need fun _ => ret_reports
  next => exact call_reports rfl rfl

theorem execReadByte_reports (sendAck : Bit) (s : State) :
    Leads (Reports (.readByte sendAck) s) (execReadByte sendAck s) := by
  unfold execReadByte
  split
  next l _ _ _ =>
    cases l with
    | y0 => exact goto_reports rfl rfl
    | y1 =>
      refine leads_callStmt (call_reports rfl rfl) fun _ => leads_need fun v => leads_need fun n => ?_
      dsimp only
      split <;> exact goto_reports rfl rfl
    | y2 => exact callStmt_goto_reports
    | y3 => exact leads_need fun _ => ret_reports
  next => exact call_reports rfl rfl

theorem execRecover_reports (s : State) : Leads (Reports .recover s) (execRecover s) := by
  unfold execRecover
  split
  next l _ _ _ =>
    cases l with
    | v0 | v3 | v4 | v9 | v10 => exact callStmt_goto_reports
    | v1 | v2 => exact goto_reports rfl rfl
    | v5 => exact leads_need fun _ => goto_reports rfl rfl
    | v6 => exact delay_goto_reports
    | v7 => exact leads_callStmt (call_reports rfl rfl) fun _ => goto_reports rfl rfl
    | v8 => exact leads_need fun _ => leads_need fun _ => goto_reports rfl rfl
    | v11 => exact tailcall_reports
  next => exact call_reports rfl rfl

theorem execPull_reports (L : Line) (s : State) : Leads (Reports (.pull L) s) (execPull L s) := by
  unfold execPull
  split
  next l _ _ _ =>
    cases l with
    | p0 => exact pinSetDir_reports
    | p1 => exact pinSetVal_reports
    | p2 => exact delay_goto_reports
    | p3 => exact ret_reports
  next => exact call_reports rfl rfl

theorem execRelease_reports (L : Line) (s : State) : Leads (Reports (.release L) s) (execRelease L s) := by
  unfold execRelease
  split
  next l _ _ _ =>
    cases l with
    | l0 => exact pinSetDir_reports
    | l1 => exact delay_goto_reports
    | l2 => exact pinGetVal_reports
    | l3 => exact leads_need fun _ => ret_reports
  next => exact call_reports rfl rfl

theorem execWaitClockReleased_reports (s : State) :
    Leads (Reports .waitClockReleased s) (execWaitClockReleased s) := by
  unfold execWaitClockReleased
  split
  next l _ _ _ =>
    cases l with
    | w0 => exact pinSetDir_reports
    | w1 | w4 => exact delay_goto_reports
    | w2 => exact pinGetVal_reports
    | w3 =>
      refine leads_need fun v => ?_
      dsimp only [Leads]
      split
      · exact delay_goto_reports
      · exact goto_reports rfl rfl
    | w5 => exact ret_reports
  next => exact call_reports rfl rfl

theorem execReadDataIdle_reports (s : State) : Leads (Reports .readDataIdle s) (execReadDataIdle s) := by
  unfold execReadDataIdle
  split
  next l _ _ _ =>
    cases l with
    | i0 => exact pinSetDir_reports
    | i1 => exact delay_goto_reports
    | i2 => exact pinGetVal_reports
    | i3 => exact leads_need fun _ => ret_reports
  next => exact call_reports rfl rfl

/-- Whatever runs, on whatever stack, tells the ports one of these things. -/
theorem exec_reports {i : Instr} {s t : State} (he : exec i s = .next t) : Reports i s t := by
  refine Leads.of_next ?_ he
  cases i with
  | new => exact execNew_reports s
  | write adr => exact execWrite_reports adr s
  | read adr => exact execRead_reports adr s
  | writeRead adr => exact execWriteRead_reports adr s
  | start => exact execStart_reports s
  | stop => exact execStop_reports s
  | writeBit bit => exact execWriteBit_reports bit s
  | readBit => exact execReadBit_reports s
  | writeByte byte => exact execWriteByte_reports byte s
  | readByte sendAck => exact execReadByte_reports sendAck s
  | recover => exact execRecover_reports s
  | pull L => exact execPull_reports L s
  | release L => exact execRelease_reports L s
  | waitClockReleased => exact execWaitClockReleased_reports s
  | readDataIdle => exact execReadDataIdle_reports s

/-! ### The two faults, read off the ports -/

section

variable {i : Instr} {s t : State}

/-- R160: a failed event as the last one tells that the statement ended in PinFault. -/
theorem Reports.pinFault_of_err {e : Event} {k : PErr} (h : Reports i s t) (htrace : t.trace = e :: s.trace)
    (herr : e.answerOf = some (.err k)) :
    t = State.afterPinFault k
      { s.issued e with drvScl := (e.lines s.lines).1, drvSda := (e.lines s.lines).2 } := by
  have hnew : s.trace ≠ e :: s.trace := (List.cons_ne_self e s.trace).symm
  cases h with
  | silent ht _ | ended ht _ | refused _ ht _ => exact absurd (ht.symm.trans htrace) hnew
  | divFault _ _ _ h => subst h; exact absurd htrace hnew
  | accepted ht _ => exact nomatch ht.symm.trans htrace
  | event e' hok ht _ =>
    obtain ⟨rfl, -⟩ := List.cons.inj (ht.symm.trans htrace)
    exact absurd herr (hok k)
  | pinFault e' k' herr' h =>
    have hcons : e' :: s.trace = e :: s.trace := by rw [← htrace, h]; rfl
    obtain ⟨rfl, -⟩ := List.cons.inj hcons
    obtain rfl : k' = k := by simpa using herr'.symm.trans herr
    exact h

/-- R152: only the zero test of NEW answers DIV_FAULT. -/
theorem Reports.new_of_divFault (h : Reports i s t) (hresp : t.responses = .divFault :: s.responses) :
    i = .new ∧ s.freq = 0 ∧ ∃ r rest, s.pc = ⟨.new .n0, r⟩ :: rest := by
  cases h with
  | divFault hi hfreq hpc _ => exact ⟨hi, hfreq, hpc⟩
  | silent _ hr | event _ _ _ hr | accepted _ hr =>
    exact absurd (hr.symm.trans hresp) (List.cons_ne_self _ _).symm
  | ended _ hr | refused _ _ hr => exact nomatch hr.symm.trans hresp
  | pinFault e k _ h => subst h; exact nomatch hresp

/-- R130: the zero test of NEW. -/
theorem exec_new_n0_zero {r : Option Byte} {rest : List Frame} (hpc : s.pc = ⟨.new .n0, r⟩ :: rest)
    (hfreq : s.freq = 0) : exec .new s = .next (s.raise .divFault) := by
  simp only [exec, execNew, hpc, hfreq, if_true]

end

end Sys2Proof.Machine

open Sys2Proof Sys2Proof.Machine

/-- Settles O17: of all that a statement can report, only a fault reports a failed event or DIV_FAULT, and both faults
are one `raise`. -/
theorem faultsEndTheCommand : Obligations.FaultsEndTheCommand := by
  refine ⟨fun i s t e k he htrace herr => ?_, fun s r rest hpc hfreq => exec_new_n0_zero hpc hfreq,
    fun i s t he hresp => (exec_reports he).new_of_divFault hresp⟩
  obtain rfl := (exec_reports he).pinFault_of_err htrace herr
  rfl
end

section
/-! SUPPORT. The host port: who may access what (R22, R52, R165), the first reason that refuses a command (R164), and
the settlement of O6 and O8. -/

namespace Sys2Proof.Machine

section

variable {s : State} {w : Word}

/-! ### Writes to FREQ, WLEN and RLEN (R22, R165) -/

theorem hostAccess_writeFreq (hc : s.configured = false) (hb : s.busy = false) :
    hostAccess (.writeReg .freq w) s = .next ({ s with freq := w }.respond .written) := by
  simp [hostAccess, State.writeReg, hc, hb]

theorem hostAccess_writeFreq_refused (h : s.configured = true ∨ s.busy = true) :
    hostAccess (.writeReg .freq w) s = .next (s.refuse .access) := by
  simp [hostAccess, State.writeReg, h]

theorem hostAccess_writeWlen (hb : s.busy = false) :
    hostAccess (.writeReg .wlen w) s = .next ({ s with wlen := w }.respond .written) := by
  simp [hostAccess, State.writeReg, hb]

theorem hostAccess_writeWlen_refused (hb : s.busy = true) :
    hostAccess (.writeReg .wlen w) s = .next (s.refuse .access) := by
  simp [hostAccess, State.writeReg, hb]

theorem hostAccess_writeRlen (hb : s.busy = false) :
    hostAccess (.writeReg .rlen w) s = .next ({ s with rlen := w }.respond .written) := by
  simp [hostAccess, State.writeReg, hb]

theorem hostAccess_writeRlen_refused (hb : s.busy = true) :
    hostAccess (.writeReg .rlen w) s = .next (s.refuse .access) := by
  simp [hostAccess, State.writeReg, hb]

/-! ### Register reads (R22, R23) -/

/-- Every register read is answered, and takes at most a free value. -/
theorem State.readReg_answers (r : Reg) (s : State) :
    ∃ x n, s.readReg r = { s with responses := x :: s.responses, freeIdx := n } ∧ ∀ q, x ≠ .refused q := by
  cases r with
  | cmd => exact ⟨.word (Config.freeCmdRead s.freeIdx), s.freeIdx + 1, rfl, nofun⟩
  | errKind =>
    by_cases h : s.resultRead = resultPinFault
    · exact ⟨.errKind s.errKind, s.freeIdx, if_pos h, nofun⟩
    · exact ⟨.errKind (Config.freeErrKind s.freeIdx), s.freeIdx + 1, if_neg h, nofun⟩
  | status | result | freq | halfUs | wlen | rlen => exact ⟨.word _, s.freeIdx, rfl, nofun⟩

/-! ### Buffer accesses (R52, R165) -/

variable {i : Nat}

theorem State.bufRefused_eq_true : s.bufRefused i = true ↔ s.busy = true ∨ Config.bufMax ≤ i := by
  simp [State.bufRefused]

theorem State.bufRefused_eq_false : s.bufRefused i = false ↔ s.busy = false ∧ i < Config.bufMax := by
  simp [State.bufRefused]

theorem State.writeBuf_of_free (h : s.bufRefused i = false) (b : Buf) (v : Byte) :
    s.writeBuf b i v = (s.setBuf b (Memory.write b (s.buf b) i v)).respond .written := by
  simp [State.writeBuf, h]

theorem State.writeBuf_of_refused (h : s.bufRefused i = true) (b : Buf) (v : Byte) :
    s.writeBuf b i v = s.refuse .access := by
  simp [State.writeBuf, h]

theorem State.readBuf_of_free (h : s.bufRefused i = false) (b : Buf) :
    s.readBuf b i = s.respond (.byte (Memory.read b (s.buf b) i)) := by
  simp [State.readBuf, h]

theorem State.readBuf_of_refused (h : s.bufRefused i = true) (b : Buf) : s.readBuf b i = s.refuse .access := by
  simp [State.readBuf, h]

end

/-! ### The reasons that refuse a command (R164) -/

/-- WBUF's length is WRITE's and WRITE_READ's. -/
theorem usesLengths_fst_iff (i : Instr) :
    (usesLengths i).1 = true ↔ (∃ adr, i = .write adr) ∨ ∃ adr, i = .writeRead adr := by
  cases i <;> simp [usesLengths]

/-- RBUF's length is READ's and WRITE_READ's. -/
theorem usesLengths_snd_iff (i : Instr) :
    (usesLengths i).2 = true ↔ (∃ adr, i = .read adr) ∨ ∃ adr, i = .writeRead adr := by
  cases i <;> simp [usesLengths]

/-- A length that the command uses exceeds its buffer (R164, order 4). -/
def State.lengthExceeded (i : Instr) (s : State) : Bool :=
  ((usesLengths i).1 && decide (s.wlen.toNat > Config.bufMax)) ||
    ((usesLengths i).2 && decide (s.rlen.toNat > Config.bufMax))

theorem State.lengthExceeded_iff (i : Instr) (s : State) :
    s.lengthExceeded i = true ↔
      (((∃ adr, i = .write adr) ∨ ∃ adr, i = .writeRead adr) ∧ Config.bufMax < s.wlen.toNat) ∨
        (((∃ adr, i = .read adr) ∨ ∃ adr, i = .writeRead adr) ∧ Config.bufMax < s.rlen.toNat) := by
  simp only [State.lengthExceeded, Bool.or_eq_true, Bool.and_eq_true, decide_eq_true_eq, usesLengths_fst_iff,
    usesLengths_snd_iff, gt_iff_lt]

section

variable {i : Instr} {s : State}

theorem State.refusal_new_configured (hb : s.busy = false) (hc : s.configured = true) :
    s.refusal .new = some .alreadyConfigured := by
  simp [State.refusal, hb, hc]

theorem State.refusal_new_unconfigured (hb : s.busy = false) (hc : s.configured = false) :
    s.refusal .new = none := by
  simp [State.refusal, hb, hc]

theorem State.refusal_unconfigured (hb : s.busy = false) (hi : i ≠ .new) (hc : s.configured = false) :
    s.refusal i = some .unconfigured := by
  simp [State.refusal, hb, hi, hc]

/-- What refuses a transaction command of a configured engine. -/
theorem State.refusal_configured (hb : s.busy = false) (hi : i ≠ .new) (hc : s.configured = true) :
    s.refusal i = if s.lengthExceeded i = true then some .length else none := by
  simp only [State.refusal, hb, hi, hc, Bool.false_eq_true, Bool.not_true, if_false]
  rfl

/-! ### A write to CMD -/

theorem hostAccess_writeCmd_busy {w : Word} (hb : s.busy = true) :
    hostAccess (.writeReg .cmd w) s = .next (s.refuse .busy) := by
  simp [hostAccess, State.writeReg, State.writeCmd, hb]

/-- On an empty stack a command is issued. -/
theorem exec_command_of_pc_nil (hpc : s.pc = []) (hi : i.isCommand = true) : exec i s = .next (s.issue i) := by
  rcases i.isCommand_iff.mp hi with rfl | ⟨adr, rfl⟩ | ⟨adr, rfl⟩ | ⟨adr, rfl⟩
  · simp only [exec, execNew, hpc]
  · simp only [exec, execWrite, hpc]
  · simp only [exec, execRead, hpc]
  · simp only [exec, execWriteRead, hpc]

/-- R72: on an idle engine the word of a command issues the command. -/
theorem hostAccess_writeCmd_issue {w : Word} (hb : s.busy = false) (hpc : s.pc = []) (hw : decodeCommand w = some i) :
    hostAccess (.writeReg .cmd w) s = .next (s.issue i) := by
  rw [← exec_command_of_pc_nil hpc (decodeCommand_eq_some_iff.mp hw).2]
  simp [hostAccess, State.writeReg, State.writeCmd, hb, hw]

theorem State.issue_of_refusal {r : RefuseReason} (h : s.refusal i = some r) : s.issue i = s.refuse r := by
  simp [State.issue, h, State.refuse]

theorem State.issue_of_accepted (h : s.refusal i = none) : s.issue i = s.accept i := by
  simp [State.issue, h]

theorem State.accept_busy (i : Instr) (s : State) : (s.accept i).busy = true := by
  obtain ⟨-, hstatus, -, -⟩ := s.accept_fields i
  rw [State.busy, hstatus, statusWord_bit1]

theorem State.accept_responses (i : Instr) (s : State) : (s.accept i).responses = s.responses := by
  unfold State.accept
  split <;> rfl

end

end Sys2Proof.Machine

open Sys2Proof Sys2Proof.Machine

/-- Settles O6: BUSY and ILLEGAL are decided before the command is issued, the other reasons by `State.refusal`. -/
theorem commandRefusals : Obligations.CommandRefusals := by
  refine ⟨⟨rfl, rfl, rfl, rfl, rfl⟩, fun s w => ⟨hostAccess_writeCmd_busy, hostAccess_writeCmd_illegal,
    fun hb hpc i hw => ?_⟩⟩
  rw [hostAccess_writeCmd_issue hb hpc hw]
  refine ⟨?configured, ?unconfigured, ?length, ?accepted⟩
  case configured =>
    rintro rfl hc
    rw [State.issue_of_refusal (State.refusal_new_configured hb hc)]
    rfl
  case unconfigured =>
    intro hi hc
    rw [State.issue_of_refusal (State.refusal_unconfigured hb hi hc)]
    rfl
  case length =>
    intro hc hl
    have hi : i ≠ .new := by
      rintro rfl
      simp at hl
    have hlen : s.refusal i = some .length := by
      rw [State.refusal_configured hb hi hc, if_pos ((State.lengthExceeded_iff i s).mpr hl)]
    rw [State.issue_of_refusal hlen]
    rfl
  case accepted =>
    intro h
    have hnone : s.refusal i = none := by
      rcases h with ⟨rfl, hc⟩ | ⟨hi, hc, hwlen, hrlen⟩
      · exact State.refusal_new_unconfigured hb hc
      · rw [State.refusal_configured hb hi hc, if_neg]
        intro hl
        rcases (State.lengthExceeded_iff i s).mp hl with ⟨huses, hlt⟩ | ⟨huses, hlt⟩
        · exact absurd (hwlen huses) (Nat.not_le.mpr hlt)
        · exact absurd (hrlen huses) (Nat.not_le.mpr hlt)
    obtain ⟨hpc', -, -, -⟩ := s.accept_fields i
    exact ⟨s.accept i, congrArg _ (State.issue_of_accepted hnone), s.accept_busy i, hpc', s.accept_responses i⟩

/-- Settles O8: each register by its own access right, each buffer by `State.bufRefused`. -/
theorem accessRights : Obligations.AccessRights := by
  refine ⟨rfl, fun s w => ⟨hostAccess_writeFreq, hostAccess_writeFreq_refused,
    fun hb => ⟨hostAccess_writeWlen hb, hostAccess_writeRlen hb⟩,
    fun hb => ⟨hostAccess_writeWlen_refused hb, hostAccess_writeRlen_refused hb⟩, ?never, ?reads,
    fun i v => ⟨?carriedOut, ?refused⟩⟩⟩
  case never => rintro r (rfl | rfl | rfl | rfl) <;> rfl
  case reads =>
    intro r
    obtain ⟨x, n, h, hx⟩ := s.readReg_answers r
    exact ⟨x, n, congrArg _ h, hx⟩
  case carriedOut =>
    intro hb hi
    have h := State.bufRefused_eq_false.mpr ⟨hb, hi⟩
    exact ⟨congrArg _ (State.writeBuf_of_free h .wbuf v), congrArg _ (State.writeBuf_of_free h .rbuf v),
      congrArg _ (State.readBuf_of_free h .wbuf), congrArg _ (State.readBuf_of_free h .rbuf)⟩
  case refused =>
    intro hor b
    have h := State.bufRefused_eq_true.mpr hor
    exact ⟨congrArg _ (State.writeBuf_of_refused h b v), congrArg _ (State.readBuf_of_refused h b)⟩
end

section
/-! SUPPORT. Words as fields (R70, R71, R74): a word whose bits above the operand are 0 is its operand above its
operation code; with it the settlement of O1 to O4. -/

namespace Sys2Proof

/-- The number of operand bits an operation's word carries from bit 4 (R71, R74); NEW fixes its seven at 0. -/
def Instr.operandWidth : Instr → Nat
  | .write _ | .read _ | .writeRead _ => 7
  | .writeByte _ => 8
  | .writeBit _ | .readByte _ | .pull _ | .release _ => 1
  | .new | .start | .stop | .readBit | .recover | .waitClockReleased | .readDataIdle => 0

theorem toNat_zero_append_append {k n : Nat} (x : BitVec n) (op : BitVec 4) :
    (0#k ++ x ++ op).toNat = x.toNat * 2 ^ 4 + op.toNat := by
  rw [BitVec.toNat_append, ← Nat.shiftLeft_add_eq_or_of_lt op.isLt, BitVec.toNat_append, Nat.shiftLeft_eq]
  simp

theorem zeroFrom_iff_lt {n : Nat} {w : Word} : zeroFrom n w = true ↔ w.toNat < 2 ^ n := by
  simp [zeroFrom, ← BitVec.toNat_inj, Nat.shiftRight_eq_div_pow, Nat.div_eq_zero_iff]

/-- The fields of a word that is an operand above an operation code. -/
theorem fields_of_toNat {n : Nat} {w : Word} {x : BitVec n} {op : BitVec 4} (h : w.toNat = x.toNat * 2 ^ 4 + op.toNat) :
    opField w = op ∧ zeroFrom (4 + n) w = true ∧ w.extractLsb' 4 n = x := by
  have hx := x.isLt
  have hop := op.isLt
  refine ⟨BitVec.eq_of_toNat_eq ?_, zeroFrom_iff_lt.mpr ?_, BitVec.eq_of_toNat_eq ?_⟩
  · rw [opField, BitVec.extractLsb'_toNat, h, Nat.shiftRight_zero]
    omega
  · rw [h, Nat.pow_add]
    omega
  · rw [BitVec.extractLsb'_toNat, h, Nat.shiftRight_eq_div_pow, Nat.mod_eq_of_lt] <;> omega

/-- A word with nothing above its operand is the operand above the operation code. -/
theorem toNat_of_zeroFrom {n : Nat} {w : Word} (h : zeroFrom (4 + n) w = true) :
    w.toNat = (w.extractLsb' 4 n).toNat * 2 ^ 4 + (opField w).toNat := by
  rw [zeroFrom_iff_lt, Nat.pow_add] at h
  rw [opField, BitVec.extractLsb'_toNat, BitVec.extractLsb'_toNat, Nat.shiftRight_zero, Nat.shiftRight_eq_div_pow,
    Nat.mod_eq_of_lt (a := w.toNat / 2 ^ 4) (by omega)]
  omega

theorem append_of_zeroFrom {k n : Nat} {w : Word} (hk : k + n + 4 = 32) (h : zeroFrom (4 + n) w = true) :
    w = (0#k ++ w.extractLsb' 4 n ++ opField w).cast hk := by
  refine BitVec.eq_of_toNat_eq ?_
  rw [BitVec.toNat_cast, toNat_zero_append_append]
  exact toNat_of_zeroFrom h

section

variable (x : Addr) (y : Byte) (b : Bit) (op : BitVec 4)

theorem fields_format_h :
    opField (0#21 ++ x ++ op) = op ∧ zeroFrom 11 (0#21 ++ x ++ op) = true ∧ addrField (0#21 ++ x ++ op) = x :=
  fields_of_toNat (toNat_zero_append_append x op)

theorem fields_format_y :
    opField (0#20 ++ y ++ op) = op ∧ zeroFrom 12 (0#20 ++ y ++ op) = true ∧ byteField (0#20 ++ y ++ op) = y :=
  fields_of_toNat (toNat_zero_append_append y op)

theorem fields_format_b :
    opField (0#27 ++ b ++ op) = op ∧ zeroFrom 5 (0#27 ++ b ++ op) = true ∧ bitField (0#27 ++ b ++ op) = b :=
  fields_of_toNat (toNat_zero_append_append b op)

end

/-! ### The decoder by operation code, for the rows with an operand (R73, R74) -/

section

variable {w : Word}

theorem decode_op_write (h : opField w = 2) : decode w = ifZeroFrom 11 w (.write (addrField w)) := by
  simp [decode, h]
theorem decode_op_read (h : opField w = 3) : decode w = ifZeroFrom 11 w (.read (addrField w)) := by
  simp [decode, h]
theorem decode_op_writeRead (h : opField w = 4) : decode w = ifZeroFrom 11 w (.writeRead (addrField w)) := by
  simp [decode, h]
theorem decode_op_writeBit (h : opField w = 7) : decode w = ifZeroFrom 5 w (.writeBit (bitField w)) := by
  simp [decode, h]
theorem decode_op_writeByte (h : opField w = 9) : decode w = ifZeroFrom 12 w (.writeByte (byteField w)) := by
  simp [decode, h]
theorem decode_op_readByte (h : opField w = 10) : decode w = ifZeroFrom 5 w (.readByte (bitField w)) := by
  simp [decode, h]
theorem decode_op_pull (h : opField w = 12) : decode w = ifZeroFrom 5 w (.pull (Line.ofBit (bitField w))) := by
  simp [decode, h]
theorem decode_op_release (h : opField w = 13) : decode w = ifZeroFrom 5 w (.release (Line.ofBit (bitField w))) := by
  simp [decode, h]

end

theorem ifZeroFrom_of_zeroFrom {n : Nat} {w : Word} (hz : zeroFrom n w = true) (i : Instr) :
    ifZeroFrom n w i = .ok i := if_pos hz

/-- Every operation's word decodes to it: the format of its row gives back the operand. -/
theorem decode_encode (i : Instr) : decode (encode i) = .ok i := by
  cases i with
  | write adr =>
    obtain ⟨hop, hz, hx⟩ := fields_format_h adr 2
    rw [encode, Instr.opcode, decode_op_write hop, ifZeroFrom_of_zeroFrom hz, hx]
  | read adr =>
    obtain ⟨hop, hz, hx⟩ := fields_format_h adr 3
    rw [encode, Instr.opcode, decode_op_read hop, ifZeroFrom_of_zeroFrom hz, hx]
  | writeRead adr =>
    obtain ⟨hop, hz, hx⟩ := fields_format_h adr 4
    rw [encode, Instr.opcode, decode_op_writeRead hop, ifZeroFrom_of_zeroFrom hz, hx]
  | writeBit b =>
    obtain ⟨hop, hz, hx⟩ := fields_format_b b 7
    rw [encode, Instr.opcode, decode_op_writeBit hop, ifZeroFrom_of_zeroFrom hz, hx]
  | writeByte x =>
    obtain ⟨hop, hz, hx⟩ := fields_format_y x 9
    rw [encode, Instr.opcode, decode_op_writeByte hop, ifZeroFrom_of_zeroFrom hz, hx]
  | readByte b =>
    obtain ⟨hop, hz, hx⟩ := fields_format_b b 10
    rw [encode, Instr.opcode, decode_op_readByte hop, ifZeroFrom_of_zeroFrom hz, hx]
  | pull l =>
    obtain ⟨hop, hz, hx⟩ := fields_format_b l.toBit 12
    rw [encode, Instr.opcode, decode_op_pull hop, ifZeroFrom_of_zeroFrom hz, hx, Line.ofBit_toBit]
  | release l =>
    obtain ⟨hop, hz, hx⟩ := fields_format_b l.toBit 13
    rw [encode, Instr.opcode, decode_op_release hop, ifZeroFrom_of_zeroFrom hz, hx, Line.ofBit_toBit]
  | new | start | stop | readBit | recover | waitClockReleased | readDataIdle => decide

/-! ### A word that decodes is the word of its operation -/

section

variable {w : Word} {op : BitVec 4}

theorem format_h_of_zeroFrom (hop : opField w = op) (hz : zeroFrom 11 w = true) : 0#21 ++ addrField w ++ op = w := by
  subst hop
  exact (append_of_zeroFrom (k := 21) (n := 7) rfl hz).symm

theorem format_y_of_zeroFrom (hop : opField w = op) (hz : zeroFrom 12 w = true) : 0#20 ++ byteField w ++ op = w := by
  subst hop
  exact (append_of_zeroFrom (k := 20) (n := 8) rfl hz).symm

theorem format_b_of_zeroFrom (hop : opField w = op) (hz : zeroFrom 5 w = true) : 0#27 ++ bitField w ++ op = w := by
  subst hop
  exact (append_of_zeroFrom (k := 27) (n := 1) rfl hz).symm

theorem format_n_of_zeroFrom (hop : opField w = op) (hz : zeroFrom 4 w = true) : 0#28 ++ op = w := by
  subst hop
  refine BitVec.eq_of_toNat_eq ?_
  have := zeroFrom_iff_lt.mp hz
  simp only [BitVec.toNat_append, opField, BitVec.extractLsb'_toNat]
  simp
  omega

end

/-- NEW fixes its address at 0 (R79). -/
theorem zeroFrom_four_of_addrField {w : Word} (hz : zeroFrom 11 w = true) (ha : addrField w = 0) :
    zeroFrom 4 w = true := by
  have h := toNat_of_zeroFrom (n := 7) hz
  rw [show w.extractLsb' 4 7 = 0#7 from ha] at h
  rw [zeroFrom_iff_lt, h]
  simpa using (opField w).isLt

theorem encode_of_decode {w : Word} {i : Instr} (h : decode w = .ok i) : encode i = w := by
  have hop := (opcode_of_decode h).symm
  unfold decode at h
  split at h
  case h_1 =>
    split at h
    · split at h
      · cases h
        exact format_n_of_zeroFrom hop (zeroFrom_four_of_addrField ‹_› ‹_›)
      · cases h
    · cases h
  case h_16 => cases h
  all_goals obtain ⟨hz, rfl⟩ := ifZeroFrom_eq_ok_iff.mp h
  case h_2 | h_3 | h_4 => exact format_h_of_zeroFrom hop hz
  case h_7 | h_10 => exact format_b_of_zeroFrom hop hz
  case h_12 | h_13 => rw [encode, Line.toBit_ofBit]; exact format_b_of_zeroFrom hop hz
  case h_9 => exact format_y_of_zeroFrom hop hz
  all_goals exact format_n_of_zeroFrom hop hz

/-! ### The opcode table -/

theorem zeroFrom_iff_getLsbD {n : Nat} {w : Word} : zeroFrom n w = true ↔ ∀ j, n ≤ j → w.getLsbD j = false := by
  rw [zeroFrom, beq_iff_eq]
  constructor
  · intro h j hj
    have : (w >>> n).getLsbD (j - n) = w.getLsbD j := by simp [Nat.add_sub_cancel' hj]
    rw [← this, h]
    simp
  · intro h
    refine BitVec.eq_of_getLsbD_eq fun j _ => ?_
    simpa using h (n + j) (Nat.le_add_right n j)

/-- A mask of the table leaves out the `n` operand bits above the operation code, and no other bit. -/
def clearsOperand (n : Nat) (mask : Word) : Bool :=
  (List.range 32).all fun j => mask.getLsbD j == (decide (j < 4) || decide (4 + n ≤ j))

theorem getLsbD_of_clearsOperand {n j : Nat} {mask : Word} (h : clearsOperand n mask = true) (hj : j < 32) :
    mask.getLsbD j = (decide (j < 4) || decide (4 + n ≤ j)) := by
  simpa using List.all_eq_true.mp h j (List.mem_range.mpr hj)

/-- A row accepts a word exactly when the word carries the row's code and nothing above its operand. -/
theorem accepts_iff {n : Nat} {mask pattern w : Word} {op : BitVec 4} (hmask : clearsOperand n mask = true)
    (hpat : pattern = op.setWidth 32) :
    TableRow.accepts ⟨pattern, mask⟩ w = true ↔ opField w = op ∧ zeroFrom (4 + n) w = true := by
  subst hpat
  have hbit (j : Nat) (hj : j < 32) :
      (w &&& mask).getLsbD j = (w.getLsbD j && (decide (j < 4) || decide (4 + n ≤ j))) := by
    rw [BitVec.getLsbD_and, getLsbD_of_clearsOperand hmask hj]
  have hop (j : Nat) (hj : j < 4) : (opField w).getLsbD j = w.getLsbD j := by simp [opField, hj]
  simp only [TableRow.accepts, beq_iff_eq, zeroFrom_iff_getLsbD]
  constructor
  · intro h
    refine ⟨BitVec.eq_of_getLsbD_eq fun j hj => ?_, fun j hj => ?_⟩
    · have := hbit j (by omega)
      rw [hop j hj]
      simpa [h, hj, show j < 32 by omega] using this.symm
    · by_cases hlt : j < 32
      · have := hbit j hlt
        simpa [h, hj, show ¬j < 4 by omega, op.getLsbD_of_ge j (by omega)] using this.symm
      · exact w.getLsbD_of_ge j (by omega)
  · rintro ⟨rfl, hz⟩
    refine BitVec.eq_of_getLsbD_eq fun j hj => ?_
    rw [hbit j hj, BitVec.getLsbD_setWidth, decide_eq_true hj, Bool.true_and]
    by_cases hlow : j < 4
    · rw [hop j hlow]
      simp [hlow]
    · rw [(opField w).getLsbD_of_ge j (by omega)]
      by_cases hhigh : 4 + n ≤ j
      · simp [hz j hhigh]
      · simp [hlow, hhigh]

theorem tableRow_accepts_iff (i : Instr) (w : Word) :
    i.tableRow.accepts w = true ↔ opField w = i.opcode ∧ zeroFrom (4 + i.operandWidth) w = true := by
  cases i <;> exact accepts_iff rfl rfl

/-- A word of an operation's row is the word of an operation of that row. -/
theorem exists_encode_of_accepts {w : Word} (j : Instr) (h : j.tableRow.accepts w = true) :
    ∃ i : Instr, encode i = w ∧ i.tableRow = j.tableRow := by
  obtain ⟨hop, hz⟩ := (tableRow_accepts_iff j w).mp h
  cases j with
  | write _ => exact ⟨.write (addrField w), format_h_of_zeroFrom hop hz, rfl⟩
  | read _ => exact ⟨.read (addrField w), format_h_of_zeroFrom hop hz, rfl⟩
  | writeRead _ => exact ⟨.writeRead (addrField w), format_h_of_zeroFrom hop hz, rfl⟩
  | writeBit _ => exact ⟨.writeBit (bitField w), format_b_of_zeroFrom hop hz, rfl⟩
  | writeByte _ => exact ⟨.writeByte (byteField w), format_y_of_zeroFrom hop hz, rfl⟩
  | readByte _ => exact ⟨.readByte (bitField w), format_b_of_zeroFrom hop hz, rfl⟩
  | pull _ =>
    refine ⟨.pull (Line.ofBit (bitField w)), ?_, rfl⟩
    rw [encode, Line.toBit_ofBit]
    exact format_b_of_zeroFrom hop hz
  | release _ =>
    refine ⟨.release (Line.ofBit (bitField w)), ?_, rfl⟩
    rw [encode, Line.toBit_ofBit]
    exact format_b_of_zeroFrom hop hz
  | new => exact ⟨.new, format_n_of_zeroFrom hop hz, rfl⟩
  | start => exact ⟨.start, format_n_of_zeroFrom hop hz, rfl⟩
  | stop => exact ⟨.stop, format_n_of_zeroFrom hop hz, rfl⟩
  | readBit => exact ⟨.readBit, format_n_of_zeroFrom hop hz, rfl⟩
  | recover => exact ⟨.recover, format_n_of_zeroFrom hop hz, rfl⟩
  | waitClockReleased => exact ⟨.waitClockReleased, format_n_of_zeroFrom hop hz, rfl⟩
  | readDataIdle => exact ⟨.readDataIdle, format_n_of_zeroFrom hop hz, rfl⟩

/-- The word of an operation is a word of its row. -/
theorem tableRow_accepts_encode (i : Instr) : i.tableRow.accepts (encode i) = true := by
  rw [tableRow_accepts_iff]
  cases i with
  | write adr | read adr | writeRead adr =>
    obtain ⟨hop, hz, -⟩ := fields_format_h adr (Instr.opcode _)
    exact ⟨hop, hz⟩
  | writeByte x =>
    obtain ⟨hop, hz, -⟩ := fields_format_y x 9
    exact ⟨hop, hz⟩
  | writeBit b | readByte b =>
    obtain ⟨hop, hz, -⟩ := fields_format_b b (Instr.opcode _)
    exact ⟨hop, hz⟩
  | pull l | release l =>
    obtain ⟨hop, hz, -⟩ := fields_format_b l.toBit (Instr.opcode _)
    exact ⟨hop, hz⟩
  | new | start | stop | readBit | recover | waitClockReleased | readDataIdle => decide

end Sys2Proof

open Sys2Proof Sys2Proof.Machine

/-- Settles O1. -/
theorem decodeOfEncode : Obligations.DecodeOfEncode := decode_encode

/-- Settles O2: every accepting branch of the decoder leaves no bit of the word unread. -/
theorem encodeOfDecode : Obligations.EncodeOfDecode := fun _ _ => encode_of_decode

/-- Settles O3: a row accepts exactly the words of its operations, and those are what the decoder accepts. -/
theorem decoderAcceptsTheTable : Obligations.DecoderAcceptsTheTable := by
  refine ⟨fun w i h => ?_, fun w j h => ?_⟩
  · rw [← encode_of_decode h]
    exact tableRow_accepts_encode i
  · obtain ⟨i, rfl, hrow⟩ := exists_encode_of_accepts j h
    exact ⟨i, decode_encode i, hrow⟩

/-- Settles O4. -/
theorem wordsOfTheSpecDecode : Obligations.WordsOfTheSpecDecode := by
  unfold Obligations.WordsOfTheSpecDecode
  decide
end


section
/-! SUPPORT. What a step fetches (R28, R72), what the host reads and writes (R22, R23, R52), acceptance (R26, R72), the
two ends of an operation (R137), and the settlement of O7, O9 to O16 and O60. -/

namespace Sys2Proof.Machine

/-! ### Acceptance (R26, R72) -/

/-- What acceptance latches of a transaction command. -/
theorem State.accept_of_addressOf {i : Instr} {adr : Addr} (h : addressOf i = some adr) (s : State) :
    s.accept i = { s.setBusy true with
      cmd := encode i, pc := [⟨entryOf i, none⟩], trace := [], adr := some adr
      wl := some s.wlen.toNat, rl := some s.rlen.toNat } := by
  simp [State.accept, h]

/-- A transaction command on an idle, configured engine whose lengths fit is accepted. -/
theorem exec_transaction_accepted {i : Instr} {adr : Addr} {s : State} (hi : addressOf i = some adr)
    (hcmd : i.isCommand = true) (hne : i ≠ .new) (hb : s.busy = false) (hpc : s.pc = []) (hc : s.configured = true)
    (hlen : s.lengthExceeded i = false) :
    exec i s = .next { s with
      status := 3, cmd := encode i, pc := [⟨entryOf i, none⟩], trace := []
      adr := some adr, wl := some s.wlen.toNat, rl := some s.rlen.toNat } := by
  have hacc : s.refusal i = none := by rw [State.refusal_configured hb hne hc, hlen]; rfl
  have hstatus : statusWord s.configured true = 3 := by rw [hc]; decide
  rw [exec_command_of_pc_nil hpc hcmd, State.issue_of_accepted hacc, State.accept_of_addressOf hi,
    State.setBusy, hstatus]

theorem exec_new_accepted {s : State} (hb : s.busy = false) (hpc : s.pc = []) (hc : s.configured = false) :
    exec .new s = .next { s with status := 2, cmd := 1, pc := [⟨.new .n0, none⟩], trace := [] } := by
  have hstatus : statusWord s.configured true = 2 := by rw [hc]; decide
  rw [exec_command_of_pc_nil hpc rfl, State.issue_of_accepted (State.refusal_new_unconfigured hb hc)]
  show Host.Outcome.next { s with status := statusWord s.configured true, cmd := encode .new, pc := _, trace := [] } = _
  rw [hstatus, show encode .new = 1 by decide]
  rfl

/-! ### What a register read shows (R23) -/

/-- Of a word read through the mask of the defined bits, bits 31:2 are 0 and bits 1:0 are the register's. -/
theorem getLsbD_and_fieldMask (w : Word) (n : Nat) :
    (w &&& fieldMask).getLsbD n = if n < 2 then w.getLsbD n else false := by
  have hmask : fieldMask.getLsbD n = decide (n < 2) := by
    by_cases h : n < 32
    · have : ∀ m < 32, fieldMask.getLsbD m = decide (m < 2) := by decide
      exact this n h
    · rw [BitVec.getLsbD_of_ge _ _ (Nat.le_of_not_lt h), decide_eq_false (by omega)]
  rw [BitVec.getLsbD_and, hmask]
  split <;> simp [*]

theorem extractLsb'_and_fieldMask (w : Word) : (w &&& fieldMask).extractLsb' 0 2 = w.extractLsb' 0 2 := by
  refine BitVec.eq_of_getLsbD_eq fun j hj => ?_
  rw [BitVec.getLsbD_extractLsb', BitVec.getLsbD_extractLsb', Nat.zero_add, getLsbD_and_fieldMask, if_pos hj]

/-! ### The buffers by name (R52) -/

@[simp] theorem State.buf_setBuf_same (b : Buf) (m : Memory) (s : State) : (s.setBuf b m).buf b = m := by
  cases b <;> rfl

theorem State.buf_setBuf_other {b c : Buf} (h : c ≠ b) (m : Memory) (s : State) : (s.setBuf b m).buf c = s.buf c := by
  cases b <;> cases c
  case wbuf.wbuf | rbuf.rbuf => exact absurd rfl h
  all_goals rfl

@[simp] theorem State.setBuf_busy (b : Buf) (m : Memory) (s : State) : (s.setBuf b m).busy = s.busy := by
  cases b <;> rfl

/-! ### The access that lands, and the word that is fetched (R28, R72) -/

theorem step_of_due_none {s : State} (h : s.due = none) : step s = sequencerStep s.tick := by
  simp only [step, h]

theorem step_of_due_some {s : State} {a : HostAction} (h : s.due = some a) : step s = hostAccess a s.popRequest := by
  simp only [step, h]

/-- A word written to CMD on an engine that is not busy runs the command it names. -/
theorem hostAccess_writeCmd_exec {s : State} {w : Word} {i : Instr} (hb : s.busy = false)
    (hw : decodeCommand w = some i) : hostAccess (.writeReg .cmd w) s = exec i s := by
  simp [hostAccess, State.writeReg, State.writeCmd, hb, hw]

theorem decodeTableWord_encode (i : Instr) : decodeTableWord 32 (encode i).toNat = some i := by
  simp [decodeTableWord, decode_encode, (encode i).isLt]

theorem withFetchWord_command {i : Instr} (hi : i.isCommand = true) (s : State) :
    s.withFetchWord 32 (encode i).toNat =
      { s.toIdle.setConfigured (i != .new) with requests := ⟨.whenIdle, .writeReg .cmd (encode i)⟩ :: s.requests } := by
  simp [State.withFetchWord, decodeTableWord_encode, hi]

theorem withFetchWord_internal {i : Instr} (hi : i.isCommand = false) (s : State) :
    s.withFetchWord 32 (encode i).toNat = { (s.setBusy true).call i with requests := [] } := by
  simp [State.withFetchWord, decodeTableWord_encode, hi]

/-- A call writes the operands its operation is fetched with (R10, R25). -/
theorem operationAt_call {i : Instr} (hi : i.isCommand = false) (s : State) :
    (s.call i).operationAt (entryOf i) = some i := by
  cases i with
  | new | write | read | writeRead => exact nomatch hi
  | start | stop | writeBit | readBit | writeByte | readByte | recover | pull | release | waitClockReleased
  | readDataIdle => rfl

end Sys2Proof.Machine

open Sys2Proof Sys2Proof.Machine

/-- Settles O7: nothing refuses the command, and acceptance latches the operands of a transaction. -/
theorem commandAcceptance : Obligations.CommandAcceptance := by
  intro s hb hpc
  refine ⟨exec_new_accepted hb hpc, fun hc adr => ⟨fun hw => ?write, fun hr => ?read, fun hw hr => ?writeRead⟩⟩
  case write =>
    exact exec_transaction_accepted rfl rfl nofun hb hpc hc (by simp [State.lengthExceeded, usesLengths, hw])
  case read =>
    exact exec_transaction_accepted rfl rfl nofun hb hpc hc (by simp [State.lengthExceeded, usesLengths, hr])
  case writeRead =>
    exact exec_transaction_accepted rfl rfl nofun hb hpc hc (by simp [State.lengthExceeded, usesLengths, hw, hr])

/-- Settles O9: STATUS and RESULT are read through the mask of their defined bits, the others as they stand. -/
theorem registerReads : Obligations.RegisterReads := by
  intro s
  refine ⟨⟨s.statusRead, rfl, ?_, ?_, fun n hn => ?_⟩, ⟨s.resultRead, rfl, extractLsb'_and_fieldMask _, fun n hn => ?_⟩,
    fun h => ?_, rfl, rfl, rfl, rfl⟩
  · exact getLsbD_and_fieldMask s.status 0
  · exact getLsbD_and_fieldMask s.status 1
  · rw [State.statusRead, getLsbD_and_fieldMask, if_neg (by omega)]
  · rw [State.resultRead, getLsbD_and_fieldMask, if_neg (by omega)]
  · have hfault : s.resultRead = resultPinFault := by rw [State.resultRead, h]; decide
    simp [hostAccess, State.readReg, hfault, State.respond]

/-- Settles O10: a buffer access within rights is one write or read of the canonical memory. -/
theorem hostBufferAccess : Obligations.HostBufferAccess := by
  intro s b i v
  refine ⟨fun hb hi => ?_, fun hor => ?_⟩
  · have h := State.bufRefused_eq_false.mpr ⟨hb, hi⟩
    have ht : ((s.setBuf b (Memory.write b (s.buf b) i v)).respond .written).bufRefused i = false := by
      rw [State.bufRefused_eq_false]
      exact ⟨by simpa using hb, hi⟩
    refine ⟨(s.setBuf b (Memory.write b (s.buf b) i v)).respond .written,
      congrArg _ (State.writeBuf_of_free h b v), ?_, ?_, ?_, fun c j hcj => ?_⟩
    · cases b <;> rfl
    · cases b <;> rfl
    · have hread : Memory.read b (((s.setBuf b (Memory.write b (s.buf b) i v)).respond .written).buf b) i = v := by
        cases b <;> exact Memory.read_write_self _ _ _ _
      show Host.Outcome.next _ = _
      rw [State.readBuf_of_free ht, hread]
      rfl
    · show Memory.read c ((s.setBuf b _).buf c) j = _
      by_cases hc : c = b
      · subst hc
        rw [State.buf_setBuf_same, Memory.read_write_other]
        rintro rfl
        exact hcj rfl
      · rw [State.buf_setBuf_other hc]
  · have h := State.bufRefused_eq_true.mpr hor
    exact ⟨congrArg _ (State.writeBuf_of_refused h b v), congrArg _ (State.readBuf_of_refused h b)⟩

/-- Settles O11. -/
theorem resetValues : Obligations.ResetValues := by
  unfold Obligations.ResetValues
  decide

/-- Settles O12: NEW's only word is 1, and the first reason that refuses another command is UNCONFIGURED. -/
theorem resetAcceptsOnlyNew : Obligations.ResetAcceptsOnlyNew := by
  refine fun w => ⟨?_, fun hw => ?_⟩
  · rintro rfl
    rw [hostAccess_writeCmd_exec rfl (i := .new) (by decide), exec_new_accepted rfl rfl rfl]
    exact ⟨_, rfl, rfl, rfl⟩
  · cases hd : decodeCommand w with
    | none => exact ⟨.illegal, .inr rfl, hostAccess_writeCmd_illegal rfl hd⟩
    | some i =>
      have hi : i ≠ .new := by
        rintro rfl
        obtain ⟨hdec, -⟩ := decodeCommand_eq_some_iff.mp hd
        exact hw ((encode_of_decode hdec).symm.trans (by decide))
      refine ⟨.unconfigured, .inl rfl, ?_⟩
      rw [hostAccess_writeCmd_issue rfl rfl hd, State.issue_of_refusal (State.refusal_unconfigured rfl hi rfl)]
      rfl

/-- Settles O13. -/
theorem stepRunsTheTopOperation : Obligations.StepRunsTheTopOperation := by
  intro s hdue
  rw [step_of_due_none hdue]
  refine ⟨fun f rest i hpc hi => ?_, fun hpc => ?_⟩
  · have hi' : s.tick.operationAt f.pos = some i := by rw [← hi]; rfl
    simp only [sequencerStep, State.tick_pc, hpc, hi', need_some]
  · simp only [sequencerStep, State.tick_pc, hpc]

/-- Settles O14. -/
theorem stepRunsTheIssuedCommand : Obligations.StepRunsTheIssuedCommand := by
  intro s w i hdue hb hw hi
  rw [step_of_due_some hdue, hostAccess_writeCmd_exec (by simpa using hb) (decodeCommand_eq_some_iff.mpr ⟨hw, hi⟩)]
  rfl

/-- Settles O15: the placed word decodes to its operation, which is what lands or what stands on top. -/
theorem placedWordRuns : Obligations.PlacedWordRuns := by
  refine fun s i => ⟨fun hi => ?_, fun hi => ⟨?_, ?_⟩⟩
  · rw [withFetchWord_command hi]
    refine stepRunsTheIssuedCommand _ (encode i) i ?_ (by simp [State.busy]) (decode_encode i) hi
    simp [State.due, State.busy]
  · rw [withFetchWord_internal hi]
    obtain ⟨hrun, -⟩ := stepRunsTheTopOperation { (s.setBusy true).call i with requests := [] } rfl
    exact hrun _ s.pc i rfl (operationAt_call hi (s.setBusy true))
  · rw [withFetchWord_internal hi]
    rfl

/-- Settles O16: the two ends of an operation are the two branches of `State.ret`. -/
theorem returnAndCommandEnd : Obligations.ReturnAndCommandEnd :=
  fun _ v => ⟨fun _ _ _ hpc => State.ret_caller hpc v, fun _ hpc => State.ret_bottom hpc v⟩

/-- Settles O60: busy refuses every write and every buffer access; a read only answers. -/
theorem hostCannotDisturbACommand : Obligations.HostCannotDisturbACommand := by
  intro s a hb ha
  cases a with
  | hardwareReset => exact absurd rfl ha
  | readReg r =>
    obtain ⟨x, n, h, -⟩ := s.readReg_answers r
    exact ⟨x, n, congrArg _ h⟩
  | writeBuf b i v =>
    exact ⟨.refused .access, s.freeIdx, congrArg _ (State.writeBuf_of_refused
      (State.bufRefused_eq_true.mpr (.inl hb)) b v)⟩
  | readBuf b i =>
    exact ⟨.refused .access, s.freeIdx, congrArg _ (State.readBuf_of_refused
      (State.bufRefused_eq_true.mpr (.inl hb)) b)⟩
  | writeReg r w =>
    cases r with
    | cmd => exact ⟨.refused .busy, s.freeIdx, hostAccess_writeCmd_busy hb⟩
    | freq => exact ⟨.refused .access, s.freeIdx, hostAccess_writeFreq_refused (.inr hb)⟩
    | wlen => exact ⟨.refused .access, s.freeIdx, hostAccess_writeWlen_refused hb⟩
    | rlen => exact ⟨.refused .access, s.freeIdx, hostAccess_writeRlen_refused hb⟩
    | status | result | errKind | halfUs => exact ⟨.refused .access, s.freeIdx, rfl⟩
end


section
/-! SUPPORT. The statements of the bit, byte, recovery and command operations, label by label (R100 to R133), and the
settlement of O22 to O32. -/

namespace Sys2Proof.Machine

theorem State.eq_of_pc {s : State} {fs : List Frame} (h : s.pc = fs) : s = { s with pc := fs } := by
  rw [← h]

section

variable {i c : Instr} {s t : State} {p next : Pos} {r : Option Byte} {rest : List Frame} {put : Byte → Locals}

/-- A statement is known once it is known with its frame written out on top of the stack. -/
theorem does_of_frame (h : exec i { s with pc := ⟨p, r⟩ :: rest } = .next t) : Does i s p r rest t :=
  fun hpc => (congrArg (exec i) (State.eq_of_pc hpc)).trans h

/-- A call statement (R10, R136), from its two halves. -/
theorem callsThen_of_frame
    (hcall : exec i { s with pc := ⟨p, none⟩ :: rest } =
      .next { s with pc := ⟨entryOf c, none⟩ :: ⟨p, none⟩ :: rest, locals := s.locals.latch c })
    (hback : ∀ v, exec i { s with pc := ⟨p, some v⟩ :: rest } =
      .next { s with pc := ⟨next, none⟩ :: rest, locals := put v }) : CallsThen i s p c rest next put :=
  ⟨does_of_frame hcall, fun v => does_of_frame (hback v)⟩

end

section

variable {s : State} {r : Option Byte} {rest : List Frame}

/-! ### START (R100) -/

theorem start_s0 :
    CallsThen .start s (.start .s0) .readDataIdle rest (.start .s1)
      fun v => { s.locals with startD := some (asBit v) } := callsThen_of_frame rfl fun _ => rfl

theorem start_s1_low (h : s.locals.startD = some 0) :
    CallsThen .start s (.start .s1) .recover rest (.start .s2) fun _ => s.locals := by
  refine callsThen_of_frame ?_ fun v => ?_ <;> simp [exec, execStart, h, State.call, State.goto]

theorem start_s1_high (h : s.locals.startD = some 1) :
    Does .start s (.start .s1) none rest { s with pc := ⟨.start .s2, none⟩ :: rest } :=
  does_of_frame (by simp [exec, execStart, h, State.goto])

theorem start_s2 :
    CallsThen .start s (.start .s2) .waitClockReleased rest (.start .s3) fun _ => s.locals :=
  callsThen_of_frame rfl fun _ => rfl

theorem start_s3 : CallsThen .start s (.start .s3) (.pull .sda) rest (.start .s4) fun _ => s.locals :=
  callsThen_of_frame rfl fun _ => rfl

theorem start_s4 : CallsThen .start s (.start .s4) (.pull .scl) rest (.start .s5) fun _ => s.locals :=
  callsThen_of_frame rfl fun _ => rfl

theorem start_s5 : Does .start s (.start .s5) r rest (s.ret noValue) :=
  fun hpc => by simp only [exec, execStart, hpc]

/-! ### STOP (R101) -/

theorem stop_e0 :
    CallsThen .stop s (.stop .e0) .waitClockReleased rest (.stop .e1) fun _ => s.locals :=
  callsThen_of_frame rfl fun _ => rfl

theorem stop_e1 :
    CallsThen .stop s (.stop .e1) (.release .sda) rest (.stop .e2)
      fun v => { s.locals with stopD := some (asBit v) } := callsThen_of_frame rfl fun _ => rfl

theorem stop_e2_low (h : s.locals.stopD = some 0) :
    Does .stop s (.stop .e2) r rest
      { s with pc := ⟨.recover .v0, none⟩ :: rest, locals := { s.locals with stopD := none } } :=
  does_of_frame (by simp [exec, execStop, h, State.tailcall, Locals.drop, Locals.latch, entryOf, Pos.op])

theorem stop_e2_high (h : s.locals.stopD = some 1) :
    Does .stop s (.stop .e2) r rest { s with pc := ⟨.stop .e3, none⟩ :: rest } :=
  does_of_frame (by simp [exec, execStop, h, State.goto])

theorem stop_e3 : Does .stop s (.stop .e3) r rest (s.ret noValue) :=
  fun hpc => by simp only [exec, execStop, hpc]

/-! ### READ_BIT (R102) -/

theorem readBit_b0 :
    CallsThen .readBit s (.readBit .b0) (.release .sda) rest (.readBit .b1) fun _ => s.locals :=
  callsThen_of_frame rfl fun _ => rfl

theorem readBit_b1 :
    CallsThen .readBit s (.readBit .b1) .waitClockReleased rest (.readBit .b2) fun _ => s.locals :=
  callsThen_of_frame rfl fun _ => rfl

theorem readBit_b2 :
    CallsThen .readBit s (.readBit .b2) .readDataIdle rest (.readBit .b3)
      fun v => { s.locals with readBitB := some (asBit v) } := callsThen_of_frame rfl fun _ => rfl

theorem readBit_b3 : CallsThen .readBit s (.readBit .b3) (.pull .scl) rest (.readBit .b4) fun _ => s.locals :=
  callsThen_of_frame rfl fun _ => rfl

theorem readBit_b4 : CallsThen .readBit s (.readBit .b4) (.pull .sda) rest (.readBit .b5) fun _ => s.locals :=
  callsThen_of_frame rfl fun _ => rfl

theorem readBit_b5 {b : Bit} (h : s.locals.readBitB = some b) :
    Does .readBit s (.readBit .b5) r rest (s.ret (ofBit b)) :=
  fun hpc => by simp only [exec, execReadBit, hpc, h, need_some]

/-! ### WRITE_BIT (R103) -/

/-- The line operation that puts a bit on the data line. -/
def sendBit (bit : Bit) : Instr := if bit = 1 then .release .sda else .pull .sda

variable {bit : Bit}

theorem writeBit_c0 :
    CallsThen (.writeBit bit) s (.writeBit .c0) (sendBit bit) rest (.writeBit .c1) fun _ => s.locals :=
  callsThen_of_frame rfl fun _ => rfl

theorem writeBit_c1 :
    CallsThen (.writeBit bit) s (.writeBit .c1) .waitClockReleased rest (.writeBit .c2) fun _ => s.locals :=
  callsThen_of_frame rfl fun _ => rfl

theorem writeBit_c2 :
    CallsThen (.writeBit bit) s (.writeBit .c2) (.pull .scl) rest (.writeBit .c3) fun _ => s.locals :=
  callsThen_of_frame rfl fun _ => rfl

theorem writeBit_c3 :
    CallsThen (.writeBit bit) s (.writeBit .c3) (.pull .sda) rest (.writeBit .c4) fun _ => s.locals :=
  callsThen_of_frame rfl fun _ => rfl

theorem writeBit_c4 : Does (.writeBit bit) s (.writeBit .c4) r rest (s.ret noValue) :=
  fun hpc => by simp only [exec, execWriteBit, hpc]

/-! ### READ_BYTE (R110) -/

variable {sa : Bit}

theorem readByte_y0 :
    Does (.readByte sa) s (.readByte .y0) r rest
      { s with pc := ⟨.readByte .y1, none⟩ :: rest,
               locals := { s.locals with readByteV := some 0, readByteI := some 7 } } := does_of_frame rfl

/-- Y1 for bit index `n`: the bit read is shifted in, and the loop goes on while `n` is not 0. -/
theorem readByte_y1 {v : Byte} {n : BitVec 3} (hv : s.locals.readByteV = some v) (hn : s.locals.readByteI = some n) :
    CallsThen (.readByte sa) s (.readByte .y1) .readBit rest (.readByte (if n = 0 then .y2 else .y1))
      fun b => { s.locals with
        readByteV := some (shiftIn v (asBit b)), readByteI := some (if n = 0 then 0 else n - 1) } := by
  refine callsThen_of_frame rfl fun b => ?_
  by_cases h0 : n = 0#3 <;> simp [exec, execReadByte, hv, hn, h0, State.goto, State.setLocals]

theorem readByte_y2 :
    CallsThen (.readByte sa) s (.readByte .y2) (.writeBit (ninthBit sa)) rest (.readByte .y3) fun _ => s.locals :=
  callsThen_of_frame rfl fun _ => rfl

theorem readByte_y3 {v : Byte} (h : s.locals.readByteV = some v) :
    Does (.readByte sa) s (.readByte .y3) r rest (s.ret v) :=
  fun hpc => by simp only [exec, execReadByte, hpc, h, need_some]

/-! ### WRITE_BYTE (R111) -/

variable {byte : Byte}

/-- X0 for bit index `n`: bit `n` is sent, and the loop goes on while `n` is not 0. -/
theorem writeByte_x0 {n : BitVec 3} (h : s.locals.writeByteI = some n) :
    CallsThen (.writeByte byte) s (.writeByte .x0) (.writeBit (bitAt byte n)) rest
      (.writeByte (if n = 0 then .x1 else .x0))
      fun _ => { s.locals with writeByteI := some (if n = 0 then 0 else n - 1) } := by
  refine callsThen_of_frame ?_ fun v => ?_
  · simp [exec, execWriteByte, h, State.call]
  · by_cases h0 : n = 0#3
    · subst h0
      have hself : { s.locals with writeByteI := some 0#3 } = s.locals := by rw [← h]
      simp [exec, execWriteByte, h, State.goto, hself]
    · simp [exec, execWriteByte, h, h0, State.goto, State.setLocals]

theorem writeByte_x1 :
    CallsThen (.writeByte byte) s (.writeByte .x1) .readBit rest (.writeByte .x2)
      fun v => { s.locals with writeByteAck := some (asBit v) } := callsThen_of_frame rfl fun _ => rfl

theorem writeByte_x2 {ack : Bit} (h : s.locals.writeByteAck = some ack) :
    Does (.writeByte byte) s (.writeByte .x2) r rest (s.ret (ofBit ack)) :=
  fun hpc => by simp only [exec, execWriteByte, hpc, h, need_some]

/-! ### RECOVER (R120) -/

theorem recover_v0 :
    CallsThen .recover s (.recover .v0) (.release .sda) rest (.recover .v1) fun _ => s.locals :=
  callsThen_of_frame rfl fun _ => rfl

theorem recover_v1 :
    Does .recover s (.recover .v1) r rest
      { s with pc := ⟨.recover .v2, none⟩ :: rest, locals := { s.locals with recoverBurst := some 0 } } :=
  does_of_frame rfl

theorem recover_v2 :
    Does .recover s (.recover .v2) r rest
      { s with pc := ⟨.recover .v3, none⟩ :: rest, locals := { s.locals with recoverPulse := some 0 } } :=
  does_of_frame rfl

theorem recover_v3 : CallsThen .recover s (.recover .v3) (.pull .scl) rest (.recover .v4) fun _ => s.locals :=
  callsThen_of_frame rfl fun _ => rfl

theorem recover_v4 : CallsThen .recover s (.recover .v4) (.release .scl) rest (.recover .v5) fun _ => s.locals :=
  callsThen_of_frame rfl fun _ => rfl

/-- V5 while the pulse counter is in range (R83). -/
theorem recover_v5 {n : BitVec 4} (h : s.locals.recoverPulse = some n) (hn : n.toNat < 15) :
    Does .recover s (.recover .v5) r rest
      { s with pc := ⟨.recover (if n.toNat + 1 < 10 then .v3 else .v6), none⟩ :: rest,
               locals := { s.locals with recoverPulse := some (n + 1) } } := by
  have hsucc : (n + 1).toNat = n.toNat + 1 := by
    rw [BitVec.toNat_add]
    exact Nat.mod_eq_of_lt (Nat.succ_lt_succ hn)
  exact does_of_frame (by simp only [exec, execRecover, h, need_some, hsucc]; rfl)

theorem recover_v6 : DelaysThen .recover s (.recover .v6) r rest 10000 (.recover .v7) := does_of_frame rfl

theorem recover_v7 :
    CallsThen .recover s (.recover .v7) .readDataIdle rest (.recover .v8)
      fun v => { s.locals with recoverD := some (asBit v) } := callsThen_of_frame rfl fun _ => rfl

/-- V8 while the burst counter is in range (R83). -/
theorem recover_v8 {n : BitVec 7} {d : Bit} (h : s.locals.recoverBurst = some n) (hd : s.locals.recoverD = some d)
    (hn : n.toNat < 127) :
    Does .recover s (.recover .v8) r rest
      { s with pc := ⟨.recover (if d = 0 ∧ n.toNat + 1 < 100 then .v2 else .v9), none⟩ :: rest,
               locals := { s.locals with recoverBurst := some (n + 1) } } := by
  have hsucc : (n + 1).toNat = n.toNat + 1 := by
    rw [BitVec.toNat_add]
    exact Nat.mod_eq_of_lt (Nat.succ_lt_succ hn)
  exact does_of_frame (by simp only [exec, execRecover, h, hd, need_some, hsucc]; rfl)

theorem recover_v9 : CallsThen .recover s (.recover .v9) (.pull .scl) rest (.recover .v10) fun _ => s.locals :=
  callsThen_of_frame rfl fun _ => rfl

theorem recover_v10 : CallsThen .recover s (.recover .v10) (.pull .sda) rest (.recover .v11) fun _ => s.locals :=
  callsThen_of_frame rfl fun _ => rfl

theorem recover_v11 :
    Does .recover s (.recover .v11) r rest
      { s with pc := ⟨.stop .e0, none⟩ :: rest,
               locals := { s.locals with recoverBurst := none, recoverPulse := none, recoverD := none } } :=
  does_of_frame rfl

/-! ### NEW (R130) -/

theorem new_n0_positive (h : s.freq ≠ 0) : Does .new s (.new .n0) r rest { s with pc := ⟨.new .n1, none⟩ :: rest } :=
  fun hpc => by simp only [exec, execNew, hpc, if_neg h, State.goto_of_pc hpc]

theorem new_n1 : Does .new s (.new .n1) r rest (s.pinExport .scl (State.goto (.new .n2))) :=
  fun hpc => by simp only [exec, execNew, hpc]

theorem new_n2 : Does .new s (.new .n2) r rest (s.pinExport .sda (State.goto (.new .n3))) :=
  fun hpc => by simp only [exec, execNew, hpc]

theorem new_n3 :
    Does .new s (.new .n3) r rest
      { s with halfUs := halfPeriod s.freq, status := statusWord true s.busy, pc := ⟨.new .n4, none⟩ :: rest } :=
  does_of_frame rfl

theorem new_n4 : Does .new s (.new .n4) r rest (s.ret noValue) :=
  fun hpc => by simp only [exec, execNew, hpc]

/-! ### The data loops (R131 to R133) -/

section

variable {i : Instr} {here next : Pos}

theorem sendsAddress_of_sendAddress {adr : Addr} {rw : Bit}
    (he : ∀ r, s.pc = ⟨here, r⟩ :: rest → exec i s = s.sendAddress r adr rw next) :
    SendsAddress i s here rest adr rw next := by
  refine ⟨fun hpc => ?_, fun v hpc => ?_⟩
  · rw [he _ hpc, State.sendAddress, State.callStmt_none, State.call, hpc]
    rfl
  · rw [he _ hpc, State.sendAddress, State.callStmt_some, State.goto_of_pc (by simpa using hpc)]
    rfl

/-! #### What the loops run -/

variable {j n : Nat}

theorem State.sendLoop_send (hj : s.locals.idx = some j) (hn : s.wl = some n) (hlt : j < n) (hfit : j < Config.bufMax) :
    s.sendLoop none here next = .next ((s.setLocals { s.locals with x := some (Memory.read .wbuf s.wbuf j) }).call
      (.writeByte (Memory.read .wbuf s.wbuf j))) := by
  simp only [State.sendLoop, hj, hn, need_some, if_pos hlt, if_pos hfit]

theorem State.sendLoop_leave (hj : s.locals.idx = some j) (hn : s.wl = some n) (hge : n ≤ j) :
    s.sendLoop none here next = .next (s.goto next) := by
  simp only [State.sendLoop, hj, hn, need_some, if_neg (Nat.not_lt.mpr hge)]

theorem State.sendLoop_sent (hj : s.locals.idx = some j) (v : Byte) :
    s.sendLoop (some v) here next =
      .next ((s.setLocals { s.locals with a := some (asBit v), idx := some (j + 1) }).goto here) := by
  simp only [State.sendLoop, hj, need_some]

theorem State.receiveLoop_receive (hj : s.locals.idx = some j) (hn : s.rl = some n) (hlt : j < n) :
    s.receiveLoop none here next = .next (s.call (.readByte (sendAckFor j n))) := by
  simp only [State.receiveLoop, hj, hn, need_some, if_pos hlt]

theorem State.receiveLoop_leave (hj : s.locals.idx = some j) (hn : s.rl = some n) (hge : n ≤ j) :
    s.receiveLoop none here next = .next (s.goto next) := by
  simp only [State.receiveLoop, hj, hn, need_some, if_neg (Nat.not_lt.mpr hge)]

/-- A received byte is stored at `idx` (R54). -/
theorem State.receiveLoop_store (hj : s.locals.idx = some j) (hfit : j < Config.bufMax) (v : Byte) :
    s.receiveLoop (some v) here next =
      .next (({ s with rbuf := Memory.write .rbuf s.rbuf j v }.setLocals
        { s.locals with x := some v, idx := some (j + 1) }).goto here) := by
  simp only [State.receiveLoop, hj, need_some, if_pos hfit]

theorem State.receiveLoop_outside (hj : s.locals.idx = some j) (hout : Config.bufMax ≤ j) (v : Byte) :
    s.receiveLoop (some v) here next = .fault .bufferRange := by
  simp only [State.receiveLoop, hj, need_some, if_neg (Nat.not_lt.mpr hout)]

/-- `send_ack` is 0 on the last byte only (R132). -/
theorem sendAckFor_eq (hlt : j < n) : sendAckFor j n = if j = n - 1 then 0 else 1 :=
  if_congr (by omega) rfl rfl

theorem sendsFrom_of_sendLoop (he : ∀ r, s.pc = ⟨here, r⟩ :: rest → exec i s = s.sendLoop r here next) :
    SendsFrom i s here next rest := by
  intro j n hj hn hmax
  refine ⟨fun hlt hpc => ?_, fun hge hpc => ?_, fun v hpc => ?_⟩
  · rw [he _ hpc, State.sendLoop_send hj hn hlt (Nat.lt_of_lt_of_le hlt hmax), State.call, State.setLocals_pc, hpc]
    rfl
  · rw [he _ hpc, State.sendLoop_leave hj hn hge, State.goto_of_pc hpc]
  · rw [he _ hpc, State.sendLoop_sent hj, State.goto_of_pc (by simpa using hpc)]
    rfl

theorem receivesFrom_of_receiveLoop (he : ∀ r, s.pc = ⟨here, r⟩ :: rest → exec i s = s.receiveLoop r here next) :
    ReceivesFrom i s here next rest := by
  intro j n hj hn hmax
  refine ⟨fun hlt hpc => ?_, fun hge hpc => ?_, fun hlt v hpc => ?_⟩
  · rw [he _ hpc, State.receiveLoop_receive hj hn hlt, State.call, hpc, sendAckFor_eq hlt]
    rfl
  · rw [he _ hpc, State.receiveLoop_leave hj hn hge, State.goto_of_pc hpc]
  · rw [he _ hpc, State.receiveLoop_store hj (Nat.lt_of_lt_of_le hlt hmax), State.goto_of_pc (by simpa using hpc)]
    rfl

end

/-! ### WRITE (R131) -/

variable {adr : Addr}

theorem write_a0 : CallsThen (.write adr) s (.write .a0) .start rest (.write .a1) fun _ => s.locals :=
  callsThen_of_frame rfl fun _ => rfl

theorem write_a1 : SendsAddress (.write adr) s (.write .a1) rest adr 0 (.write .a2) :=
  sendsAddress_of_sendAddress fun r hpc => by simp only [exec, execWrite, hpc, rwWrite]

theorem write_a2 : SendsFrom (.write adr) s (.write .a2) (.write .a3) rest :=
  sendsFrom_of_sendLoop fun r hpc => by simp only [exec, execWrite, hpc]

theorem write_a3 : CallsThen (.write adr) s (.write .a3) .stop rest (.write .a4) fun _ => s.locals :=
  callsThen_of_frame rfl fun _ => rfl

theorem write_a4 : Does (.write adr) s (.write .a4) r rest (s.ret noValue) :=
  fun hpc => by simp only [exec, execWrite, hpc]

/-! ### READ (R132) -/

theorem read_a0 : CallsThen (.read adr) s (.read .a0) .start rest (.read .a1) fun _ => s.locals :=
  callsThen_of_frame rfl fun _ => rfl

theorem read_a1 : SendsAddress (.read adr) s (.read .a1) rest adr 1 (.read .a2) :=
  sendsAddress_of_sendAddress fun r hpc => by simp only [exec, execRead, hpc, rwRead]

theorem read_a2 : ReceivesFrom (.read adr) s (.read .a2) (.read .a3) rest :=
  receivesFrom_of_receiveLoop fun r hpc => by simp only [exec, execRead, hpc]

theorem read_a3 : CallsThen (.read adr) s (.read .a3) .stop rest (.read .a4) fun _ => s.locals :=
  callsThen_of_frame rfl fun _ => rfl

theorem read_a4 : Does (.read adr) s (.read .a4) r rest (s.ret noValue) :=
  fun hpc => by simp only [exec, execRead, hpc]

/-! ### WRITE_READ (R133) -/

theorem writeRead_a0 : CallsThen (.writeRead adr) s (.writeRead .a0) .start rest (.writeRead .a1) fun _ => s.locals :=
  callsThen_of_frame rfl fun _ => rfl

theorem writeRead_a1 : SendsAddress (.writeRead adr) s (.writeRead .a1) rest adr 0 (.writeRead .a2) :=
  sendsAddress_of_sendAddress fun r hpc => by simp only [exec, execWriteRead, hpc, rwWrite]

theorem writeRead_a2 : SendsFrom (.writeRead adr) s (.writeRead .a2) (.writeRead .a3) rest :=
  sendsFrom_of_sendLoop fun r hpc => by simp only [exec, execWriteRead, hpc]

theorem writeRead_a3 : CallsThen (.writeRead adr) s (.writeRead .a3) .start rest (.writeRead .a4) fun _ => s.locals :=
  callsThen_of_frame rfl fun _ => rfl

theorem writeRead_a4 : SendsAddress (.writeRead adr) s (.writeRead .a4) rest adr 1 (.writeRead .a5) :=
  sendsAddress_of_sendAddress fun r hpc => by simp only [exec, execWriteRead, hpc, rwRead]

theorem writeRead_a5 : ReceivesFrom (.writeRead adr) s (.writeRead .a5) (.writeRead .a6) rest :=
  receivesFrom_of_receiveLoop fun r hpc => by simp only [exec, execWriteRead, hpc]

theorem writeRead_a6 : CallsThen (.writeRead adr) s (.writeRead .a6) .stop rest (.writeRead .a7) fun _ => s.locals :=
  callsThen_of_frame rfl fun _ => rfl

theorem writeRead_a7 : Does (.writeRead adr) s (.writeRead .a7) r rest (s.ret noValue) :=
  fun hpc => by simp only [exec, execWriteRead, hpc]

end

/-! ### Bits as the spec writes them -/

/-- `byte[i]` as one bit (R9). -/
theorem bitAt_eq_ofBool (byte : Byte) (i : BitVec 3) : bitAt byte i = BitVec.ofBool (byte.getLsbD i.toNat) := by
  refine BitVec.eq_of_getLsbD_eq fun j hj => ?_
  obtain rfl : j = 0 := by omega
  simp [bitAt]

/-- Shifting in the low bit of a byte (R83 c). -/
theorem shiftIn_asBit (v b : Byte) : shiftIn v (asBit b) = (v <<< 1) ||| (b &&& 1) := by
  have hlow : (b.setWidth 1).setWidth 8 = b &&& 1 := by
    refine BitVec.eq_of_getLsbD_eq fun j hj => ?_
    rcases j with _ | j <;> simp [hj]
  rw [shiftIn, asBit, hlow]

end Sys2Proof.Machine

open Sys2Proof Sys2Proof.Machine

/-- Settles O22. -/
theorem startStatements : Obligations.StartStatements := fun _ _ =>
  ⟨start_s0, start_s1_low, start_s1_high, start_s2, start_s3, start_s4, fun _ => start_s5⟩

/-- Settles O23. -/
theorem stopStatements : Obligations.StopStatements := fun _ _ =>
  ⟨stop_e0, stop_e1, fun _ => stop_e2_low, fun _ => stop_e2_high, fun _ => stop_e3⟩

/-- Settles O24. -/
theorem readBitStatements : Obligations.ReadBitStatements := fun _ _ =>
  ⟨readBit_b0, readBit_b1, readBit_b2, readBit_b3, readBit_b4, fun _ _ => readBit_b5⟩

/-- Settles O25. -/
theorem writeBitStatements : Obligations.WriteBitStatements := fun _ _ =>
  ⟨writeBit_c0 (bit := 1), writeBit_c0 (bit := 0), fun _ => ⟨writeBit_c1, writeBit_c2, writeBit_c3,
    fun _ => writeBit_c4⟩⟩

/-- Settles O26: the loop's step is the model's shift written on whole bytes. -/
theorem readByteStatements : Obligations.ReadByteStatements := by
  refine fun sa s rest v n => ⟨fun _ => readByte_y0, fun hv hn => ?_, readByte_y2, fun _ => readByte_y3⟩
  simpa only [shiftIn_asBit] using readByte_y1 (s := s) (rest := rest) (sa := sa) hv hn

/-- Settles O27: the bit sent is the bit of the byte the spec names. -/
theorem writeByteStatements : Obligations.WriteByteStatements := by
  refine fun byte s rest n => ⟨fun hn => ?_, writeByte_x1, fun _ _ => writeByte_x2⟩
  simpa only [bitAt_eq_ofBool] using writeByte_x0 (s := s) (rest := rest) (byte := byte) hn

/-- Settles O28. -/
theorem recoverStatements : Obligations.RecoverStatements := fun _ _ =>
  ⟨recover_v0, fun _ => recover_v1, fun _ => recover_v2, recover_v3, recover_v4, fun _ _ => recover_v5,
    fun _ => recover_v6, recover_v7, fun _ _ _ => recover_v8, recover_v9, recover_v10, fun _ => recover_v11⟩

/-- Settles O29: N1 and N2 are the two exports, N3 the division by a positive frequency. -/
theorem newStatements : Obligations.NewStatements := by
  intro s r rest
  refine ⟨fun hf hpc => exec_new_n0_zero hpc hf, new_n0_positive, fun v hv hpc => ?_, fun k hk hpc => ?_,
    fun v hv hpc => ?_, fun k hk hpc => ?_, fun hf => ?_, fun _ => ⟨_, new_n3⟩, new_n4⟩
  · rw [new_n1 hpc, State.pinExport_ok hv, State.goto_of_pc (by simpa using hpc)]
    rfl
  · rw [new_n1 hpc, State.pinExport_err hk]
    rfl
  · rw [new_n2 hpc, State.pinExport_ok hv, State.goto_of_pc (by simpa using hpc)]
    rfl
  · rw [new_n2 hpc, State.pinExport_err hk]
    rfl
  · have hhalf : halfPeriod s.freq = BitVec.ofNat 32 (500000 / s.freq.toNat) := halfPeriod_of_ne_zero hf
    rw [← hhalf]
    exact new_n3

/-- Settles O30. -/
theorem writeStatements : Obligations.WriteStatements := fun _ _ _ =>
  ⟨write_a0, write_a1, write_a2, write_a3, fun _ => write_a4⟩

/-- Settles O31. -/
theorem readStatements : Obligations.ReadStatements := fun _ _ _ =>
  ⟨read_a0, read_a1, read_a2, read_a3, fun _ => read_a4⟩

/-- Settles O32. -/
theorem writeReadStatements : Obligations.WriteReadStatements := fun _ _ _ =>
  ⟨writeRead_a0, writeRead_a1, writeRead_a2, writeRead_a3, writeRead_a4, writeRead_a5, writeRead_a6,
    fun _ => writeRead_a7⟩
end


section
/-! SUPPORT. What a statement can do, said once (R10, R11, R28): the labels it can go to, the event it can issue, what it
may write, and the only ways it can stop the model. The invariants of the engine are read off from it. -/

namespace Sys2Proof.Machine

/-! ### The flow graph of the operations' texts -/

/-- The labels a statement goes to without a call having returned at it. N0, whose `goto` depends on FREQ, is apart. -/
def Pos.steps : Pos → Pos → Bool
  | .new .n1, .new .n2 | .new .n2, .new .n3 | .new .n3, .new .n4 => true
  | .write .a2, .write .a3 | .read .a2, .read .a3
  | .writeRead .a2, .writeRead .a3 | .writeRead .a5, .writeRead .a6 => true
  | .start .s1, .start .s2 | .stop .e2, .stop .e3 | .readByte .y0, .readByte .y1 => true
  | .recover .v1, .recover .v2 | .recover .v2, .recover .v3 | .recover .v5, .recover .v3 => true
  | .recover .v5, .recover .v6 | .recover .v6, .recover .v7 => true
  | .recover .v8, .recover .v2 | .recover .v8, .recover .v9 => true
  | .pull .p0, .pull .p1 | .pull .p1, .pull .p2 | .pull .p2, .pull .p3 => true
  | .release .l0, .release .l1 | .release .l1, .release .l2 | .release .l2, .release .l3 => true
  | .waitClockReleased .w0, .waitClockReleased .w1 | .waitClockReleased .w1, .waitClockReleased .w2 => true
  | .waitClockReleased .w2, .waitClockReleased .w3 | .waitClockReleased .w3, .waitClockReleased .w4 => true
  | .waitClockReleased .w4, .waitClockReleased .w5 => true
  | .readDataIdle .i0, .readDataIdle .i1 | .readDataIdle .i1, .readDataIdle .i2 => true
  | .readDataIdle .i2, .readDataIdle .i3 => true
  | _, _ => false

/-- The labels whose statement can go on without a call having returned and without an event. -/
def Pos.isSilent : Pos → Bool
  | .waitClockReleased l => l == .w3
  | .recover l => l != .v6
  | .new _ | .pull _ | .release _ | .readDataIdle _ => false
  | _ => true

/-- The labels that issue a delay. -/
def Pos.isDelay : Pos → Bool
  | .pull .p2 | .release .l1 | .readDataIdle .i1 | .recover .v6 => true
  | .waitClockReleased .w1 | .waitClockReleased .w3 | .waitClockReleased .w4 => true
  | _ => false

/-- The labels a call statement goes to when its call has returned. -/
def Pos.resumes : Pos → Pos → Bool
  | .write .a0, .write .a1 | .write .a1, .write .a2 | .write .a2, .write .a2 | .write .a3, .write .a4 => true
  | .read .a0, .read .a1 | .read .a1, .read .a2 | .read .a2, .read .a2 | .read .a3, .read .a4 => true
  | .writeRead .a0, .writeRead .a1 | .writeRead .a1, .writeRead .a2 | .writeRead .a2, .writeRead .a2 => true
  | .writeRead .a3, .writeRead .a4 | .writeRead .a4, .writeRead .a5 | .writeRead .a5, .writeRead .a5 => true
  | .writeRead .a6, .writeRead .a7 => true
  | .start .s0, .start .s1 | .start .s1, .start .s2 | .start .s2, .start .s3 | .start .s3, .start .s4 => true
  | .start .s4, .start .s5 | .stop .e0, .stop .e1 | .stop .e1, .stop .e2 => true
  | .readBit .b0, .readBit .b1 | .readBit .b1, .readBit .b2 | .readBit .b2, .readBit .b3 => true
  | .readBit .b3, .readBit .b4 | .readBit .b4, .readBit .b5 => true
  | .writeBit .c0, .writeBit .c1 | .writeBit .c1, .writeBit .c2 | .writeBit .c2, .writeBit .c3 => true
  | .writeBit .c3, .writeBit .c4 => true
  | .writeByte .x0, .writeByte .x0 | .writeByte .x0, .writeByte .x1 | .writeByte .x1, .writeByte .x2 => true
  | .readByte .y1, .readByte .y1 | .readByte .y1, .readByte .y2 | .readByte .y2, .readByte .y3 => true
  | .recover .v0, .recover .v1 | .recover .v3, .recover .v4 | .recover .v4, .recover .v5 => true
  | .recover .v7, .recover .v8 | .recover .v9, .recover .v10 | .recover .v10, .recover .v11 => true
  | _, _ => false

/-- The labels that return. -/
def Pos.isLast : Pos → Bool
  | .new .n4 | .write .a4 | .read .a4 | .writeRead .a7 | .start .s5 | .stop .e3 | .readBit .b5 | .writeBit .c4 => true
  | .readByte .y3 | .writeByte .x2 | .pull .p3 | .release .l3 | .waitClockReleased .w5 | .readDataIdle .i3 => true
  | _ => false

/-- What a call statement calls itself: line operations on its own line; of STOP and RECOVER, which tail-call each other,
only the one its text names. -/
def Pos.invokes (p : Pos) : Instr → Bool
  | .pull L | .release L => L == p.line
  | .recover => p == .start .s1
  | .stop => p != .start .s1
  | _ => true

/-- The pin event that the statement of `i` at a label issues, and the label after it (R90 to R93, R130). -/
inductive Issues : Instr → Pos → Event → Pos → Prop
  | claimScl (a : Ack) : Issues .new (.new .n1) (.claim .scl a) (.new .n2)
  | claimSda (a : Ack) : Issues .new (.new .n2) (.claim .sda a) (.new .n3)
  | pullDir (L : Line) (a : Ack) : Issues (.pull L) (.pull .p0) (.setDir L .output a) (.pull .p1)
  | pullVal (L : Line) (a : Ack) : Issues (.pull L) (.pull .p1) (.setVal L 0 a) (.pull .p2)
  | releaseDir (L : Line) (a : Ack) : Issues (.release L) (.release .l0) (.setDir L .input a) (.release .l1)
  | releaseVal (L : Line) (a : PinAnswer) : Issues (.release L) (.release .l2) (.getVal L a) (.release .l3)
  | waitDir (a : Ack) : Issues .waitClockReleased (.waitClockReleased .w0) (.setDir .scl .input a)
    (.waitClockReleased .w1)
  | waitVal (a : PinAnswer) : Issues .waitClockReleased (.waitClockReleased .w2) (.getVal .scl a)
    (.waitClockReleased .w3)
  | idleDir (a : Ack) : Issues .readDataIdle (.readDataIdle .i0) (.setDir .sda .input a) (.readDataIdle .i1)
  | idleVal (a : PinAnswer) : Issues .readDataIdle (.readDataIdle .i2) (.getVal .sda a) (.readDataIdle .i3)

theorem Issues.steps {i : Instr} {p q : Pos} {e : Event} (h : Issues i p e q) : p.steps q = true := by cases h <;> rfl

/-- A pin event was issued, and the lines are as it leaves them (R11). -/
def State.observed (e : Event) (s : State) : State :=
  { s.issued e with drvScl := (e.lines s.lines).1, drvSda := (e.lines s.lines).2 }

/-! ### The effect of a statement -/

/-- What the statement of `i` at `p`, its call having handed back `r`, can make of `s`. -/
inductive Effect (i : Instr) (s : State) (p : Pos) (r : Option Byte) : Out → Prop
  /-- To another label of the operation, its own registers written. -/
  | move (q : Pos) (l : Locals) (hq : (p.steps q = true ∧ p.isSilent = true) ∨ (r ≠ none ∧ p.resumes q = true))
      (hl : l.drop p.op = s.locals.drop p.op) (hlive : s.liveAt p = true → (s.setLocals l).liveAt q = true) :
      Effect i s p r (.next ((s.setLocals l).goto q))
  /-- A call; only the data loops of a write phase write a register with it. -/
  | call (c : Instr) (l : Locals) (hr : r = none) (hc : p.calls (opOf c) = true) (hinv : p.invokes c = true)
      (hl : l.drop p.op = s.locals.drop p.op) (hlive : s.liveAt p = true → (s.setLocals l).liveAt p = true)
      (hrecv : (s.setLocals l).receiving p) : Effect i s p r (.next ((s.setLocals l).call c))
  | tail (c : Instr) (hc : (p = .stop .e2 ∧ c = .recover) ∨ (p = .recover .v11 ∧ c = .stop)) :
      Effect i s p r (.next (s.tailcall c))
  | ret (v : Byte) (hp : p.isLast = true) : Effect i s p r (.next (s.ret v))
  | delay (us : Nat) (q : Pos) (hq : p.steps q = true) (hp : p.isDelay = true)
    (hlive : s.liveAt p = true → s.liveAt q = true) :
      Effect i s p r (.next ((s.delay us).goto q))
  /-- A pin event answered ok. -/
  | event (e : Event) (q : Pos) (l : Locals) (he : Issues i p e q) (hok : ∀ k, e.answerOf ≠ some (.err k))
      (hl : l.drop p.op = s.locals.drop p.op)
      (hline : l.pullL = s.locals.pullL ∧ l.releaseL = s.locals.releaseL)
      (hlive : s.liveAt p = true → (s.setLocals l).liveAt q = true) :
      Effect i s p r (.next (((s.observed e).setLocals l).goto q))
  /-- A pin event answered with an error. -/
  | pinFault (e : Event) (k : PErr) (q : Pos) (he : Issues i p e q) (hans : s.nextAnswer = .err k) :
      Effect i s p r (.next ((s.observed e).raise (.pinFault k)))
  /-- The zero test of NEW, passed and failed. -/
  | positive (hi : i = .new) (hp : p = .new .n0) (hf : s.freq ≠ 0) : Effect i s p r (.next (s.goto (.new .n1)))
  | zero (hi : i = .new) (hp : p = .new .n0) (hf : s.freq = 0) : Effect i s p r (.next (s.raise .divFault))
  | configure (hi : i = .new) (hp : p = .new .n3) :
      Effect i s p r (.next ({ s.setConfigured true with halfUs := halfPeriod s.freq }.goto (.new .n4)))
  /-- A received byte is stored. -/
  | store (j : Nat) (v : Byte)
      (hi : (∃ adr, i = .read adr ∧ p = .read .a2) ∨ ∃ adr, i = .writeRead adr ∧ p = .writeRead .a5)
      (hr : r = some v) (hj : s.locals.idx = some j) (hfit : j < Config.bufMax) :
      Effect i s p r (.next (({ s with rbuf := Memory.write .rbuf s.rbuf j v }.setLocals
        { s.locals with x := some v, idx := some (j + 1) }).goto p))
  /-- The model stops only where a register holds no value or an index is out of range. -/
  | fault (f : Fault) (h : s.liveAt p = true → s.lengthsOk p → (r ≠ none → s.receiving p) → False) :
      Effect i s p r (.fault f)

section

variable {i c : Instr} {s : State} {p q : Pos} {r : Option Byte}

theorem effect_goto (hq : p.steps q = true) (hp : p.isSilent = true) (hlive : s.liveAt p = true → s.liveAt q = true) :
    Effect i s p r (.next (s.goto q)) := .move q s.locals (.inl ⟨hq, hp⟩) rfl hlive

theorem effect_need {α : Type} {v : Option α} {k : α → Out} (hdead : v = none → s.liveAt p = false)
    (hk : ∀ a, v = some a → Effect i s p r (k a)) : Effect i s p r (need v k) := by
  cases v with
  | none => exact .fault _ fun h => absurd h (by simp [hdead rfl])
  | some a => exact hk a rfl

theorem effect_callStmt {k : Byte → State → Out} (hc : p.calls (opOf c) = true) (hinv : p.invokes c = true)
    (hrecv : s.receiving p) (hk : ∀ v, r = some v → Effect i s p r (k v s)) : Effect i s p r (s.callStmt r c k) := by
  cases r with
  | none => exact .call c s.locals rfl hc hinv rfl id hrecv
  | some v => exact hk v rfl

/-- A call whose value is dropped. -/
theorem effect_callStmt_goto (hc : p.calls (opOf c) = true) (hinv : p.invokes c = true) (hrecv : s.receiving p)
    (hq : p.resumes q = true) (hlive : s.liveAt p = true → s.liveAt q = true) :
    Effect i s p r (s.callStmt r c fun _ t => .next (t.goto q)) := by
  refine effect_callStmt hc hinv hrecv ?_
  rintro v rfl
  exact .move q s.locals (.inr ⟨nofun, hq⟩) rfl hlive

/-! #### The pin primitives (R11) -/

theorem effect_pinExport {L : Line} (he : ∀ a, Issues i p (.claim L a) q)
    (hlive : s.liveAt p = true → s.liveAt q = true) : Effect i s p r (.next (s.pinExport L (State.goto q))) := by
  rcases s.nextAnswer_cases with ⟨v, hv⟩ | ⟨k, hk⟩
  · rw [State.pinExport_ok hv, show (s.dropAnswer.record (.claim L .ok)).setDrv L .unknown =
      (s.observed (.claim L .ok)).setLocals s.locals by cases L <;> rfl]
    exact .event _ q s.locals (he .ok) nofun rfl ⟨rfl, rfl⟩ hlive
  · rw [State.pinExport_err hk, show s.dropAnswer.record (.claim L (.err k)) = s.observed (.claim L (.err k)) by
      cases L <;> rfl]
    exact .pinFault _ k _ (he _) hk

theorem effect_pinSetDir {L : Line} {d : Dir} (he : ∀ a, Issues i p (.setDir L d a) q)
    (hlive : s.liveAt p = true → s.liveAt q = true) : Effect i s p r (.next (s.pinSetDir L d (State.goto q))) := by
  rcases s.nextAnswer_cases with ⟨v, hv⟩ | ⟨k, hk⟩
  · rw [State.pinSetDir_ok hv, show (s.dropAnswer.record (.setDir L d .ok)).setDrv L (Dir.drv d) =
      (s.observed (.setDir L d .ok)).setLocals s.locals by cases L <;> cases d <;> rfl]
    exact .event _ q s.locals (he .ok) nofun rfl ⟨rfl, rfl⟩ hlive
  · rw [State.pinSetDir_err hk, show (s.dropAnswer.record (.setDir L d (.err k))).setDrv L .unknown =
      s.observed (.setDir L d (.err k)) by cases L <;> cases d <;> rfl]
    exact .pinFault _ k _ (he _) hk

theorem effect_pinSetVal {L : Line} (he : ∀ a, Issues i p (.setVal L 0 a) q)
    (hlive : s.liveAt p = true → s.liveAt q = true) : Effect i s p r (.next (s.pinSetVal L (State.goto q))) := by
  rcases s.nextAnswer_cases with ⟨v, hv⟩ | ⟨k, hk⟩
  · rw [State.pinSetVal_ok hv, show (s.dropAnswer.record (.setVal L 0 .ok)).setDrv L .pulled =
      (s.observed (.setVal L 0 .ok)).setLocals s.locals by cases L <;> rfl]
    exact .event _ q s.locals (he .ok) nofun rfl ⟨rfl, rfl⟩ hlive
  · rw [State.pinSetVal_err hk, show (s.dropAnswer.record (.setVal L 0 (.err k))).setDrv L .unknown =
      s.observed (.setVal L 0 (.err k)) by cases L <;> rfl]
    exact .pinFault _ k _ (he _) hk

theorem effect_pinGetVal {L : Line} (put : Bit → Locals → Locals) (he : ∀ a, Issues i p (.getVal L a) q)
    (hl : ∀ v, (put v s.locals).drop p.op = s.locals.drop p.op)
    (hline : ∀ v, (put v s.locals).pullL = s.locals.pullL ∧ (put v s.locals).releaseL = s.locals.releaseL)
    (hlive : ∀ v, s.liveAt p = true → (s.setLocals (put v s.locals)).liveAt q = true) :
    Effect i s p r (.next (s.pinGetVal L fun v t => (t.setLocals (put v t.locals)).goto q)) := by
  rcases s.nextAnswer_cases with ⟨v, hv⟩ | ⟨k, hk⟩
  · rw [State.pinGetVal_ok hv]
    exact .event (.getVal L (.ok v)) q (put v s.locals) (he _) nofun (hl v) (hline v) (hlive v)
  · rw [State.pinGetVal_err hk]
    exact .pinFault (.getVal L (.err k)) k _ (he _) hk

end

/-! ### The effect of each operation's statements -/

section

variable {s : State} {r : Option Byte} {rest : List Frame}

theorem execNew_effect {l : NewLabel} (hpc : s.pc = ⟨.new l, r⟩ :: rest) : Effect .new s (.new l) r (execNew s) := by
  simp only [execNew, hpc]
  cases l with
  | n0 =>
    dsimp only
    split
    · exact .zero rfl rfl ‹_›
    · exact .positive rfl rfl ‹_›
  | n1 => exact effect_pinExport .claimScl id
  | n2 => exact effect_pinExport .claimSda id
  | n3 => exact .configure rfl rfl
  | n4 => exact .ret _ rfl

/-! #### The parts the transaction commands share -/

theorem sendAddress_effect {i : Instr} {adr : Addr} {rw : Bit} {p q : Pos} (hc : p.calls .writeByte = true)
    (hrecv : s.receiving p) (hq : p.resumes q = true)
    (hl : ∀ l : Locals, ∀ v n, Locals.drop p.op { l with a := v, idx := n } = l.drop p.op)
    (hlive : ∀ v, s.liveAt p = true →
      (s.setLocals { s.locals with a := some v, idx := some 0 }).liveAt q = true) :
    Effect i s p r (s.sendAddress r adr rw q) := by
  refine effect_callStmt hc rfl hrecv ?_
  rintro v rfl
  exact .move q _ (.inr ⟨nofun, hq⟩) (hl _ _ _) (hlive _)

theorem sendLoop_effect {i : Instr} {p q : Pos} (hp : p = .write .a2 ∨ p = .writeRead .a2) (hq : p.steps q = true)
    (hlive : s.liveAt p = true → s.liveAt q = true) : Effect i s p r (s.sendLoop r p q) := by
  have hsilent : p.isSilent = true := by rcases hp with rfl | rfl <;> rfl
  refine effect_need (fun h => ?_) fun j hj => ?_
  · rcases hp with rfl | rfl <;> simp [State.liveAt, h]
  cases r with
  | none =>
    refine effect_need (fun h => ?_) fun n hn => ?_
    · rcases hp with rfl | rfl <;> simp [State.liveAt, h]
    split
    · split
      · rcases hp with rfl | rfl <;> exact .call _ _ rfl rfl rfl rfl id trivial
      · refine .fault _ fun _ hlen _ => ?_
        have : n ≤ Config.bufMax := by
          rcases hp with rfl | rfl
          · exact hlen n hn
          · exact hlen.1 n hn
        omega
    · exact effect_goto hq hsilent hlive
  | some v =>
    rcases hp with rfl | rfl <;>
      exact .move _ _ (.inr ⟨nofun, rfl⟩) rfl fun h => by simpa [State.liveAt, hj] using h

theorem receiveLoop_effect {i : Instr} {p q : Pos}
    (hp : (∃ adr, i = .read adr ∧ p = .read .a2) ∨ ∃ adr, i = .writeRead adr ∧ p = .writeRead .a5)
    (hq : p.steps q = true) (hlive : s.liveAt p = true → s.liveAt q = true) :
    Effect i s p r (s.receiveLoop r p q) := by
  have hsilent : p.isSilent = true := by rcases hp with ⟨_, -, rfl⟩ | ⟨_, -, rfl⟩ <;> rfl
  refine effect_need (fun h => ?_) fun j hj => ?_
  · rcases hp with ⟨_, -, rfl⟩ | ⟨_, -, rfl⟩ <;> simp [State.liveAt, h]
  cases r with
  | none =>
    refine effect_need (fun h => ?_) fun n hn => ?_
    · rcases hp with ⟨_, -, rfl⟩ | ⟨_, -, rfl⟩ <;> simp [State.liveAt, h]
    split
    · have hrecv : ∀ a b, s.locals.idx = some a → s.rl = some b → a < b := by
        rintro a b ha hb
        obtain rfl : j = a := Option.some.inj (hj.symm.trans ha)
        obtain rfl : n = b := Option.some.inj (hn.symm.trans hb)
        assumption
      rcases hp with ⟨_, -, rfl⟩ | ⟨_, -, rfl⟩ <;> exact .call _ s.locals rfl rfl rfl rfl id hrecv
    · exact effect_goto hq hsilent hlive
  | some v =>
    dsimp only
    split
    · exact .store j v hp rfl hj ‹_›
    · refine .fault _ fun hlv hlen hrecv => ?_
      have hrange (n : Nat) (hn : s.rl = some n) : j < n ∧ n ≤ Config.bufMax := by
        rcases hp with ⟨_, -, rfl⟩ | ⟨_, -, rfl⟩
        · exact ⟨hrecv nofun j n hj hn, hlen n hn⟩
        · exact ⟨hrecv nofun j n hj hn, hlen.2 n hn⟩
      cases hn : s.rl with
      | none => rcases hp with ⟨_, -, rfl⟩ | ⟨_, -, rfl⟩ <;> simp [State.liveAt, hn] at hlv
      | some n =>
        have := hrange n hn
        omega

theorem execWrite_effect {adr : Addr} {l : TransferLabel} (hpc : s.pc = ⟨.write l, r⟩ :: rest) :
    Effect (.write adr) s (.write l) r (execWrite adr s) := by
  simp only [execWrite, hpc]
  cases l with
  | a0 => exact effect_callStmt_goto rfl rfl trivial rfl id
  | a1 => exact sendAddress_effect rfl trivial rfl (fun _ _ _ => rfl) fun _ h => by simpa [State.liveAt] using h
  | a2 => exact sendLoop_effect (.inl rfl) rfl fun h => by simp_all [State.liveAt]
  | a3 => exact effect_callStmt_goto rfl rfl trivial rfl id
  | a4 => exact .ret _ rfl

theorem execRead_effect {adr : Addr} {l : TransferLabel} (hpc : s.pc = ⟨.read l, r⟩ :: rest) :
    Effect (.read adr) s (.read l) r (execRead adr s) := by
  simp only [execRead, hpc]
  cases l with
  | a0 => exact effect_callStmt_goto rfl rfl trivial rfl id
  | a1 => exact sendAddress_effect rfl trivial rfl (fun _ _ _ => rfl) fun _ h => by simpa [State.liveAt] using h
  | a2 => exact receiveLoop_effect (.inl ⟨adr, rfl, rfl⟩) rfl fun h => by simp_all [State.liveAt]
  | a3 => exact effect_callStmt_goto rfl rfl trivial rfl id
  | a4 => exact .ret _ rfl

theorem execWriteRead_effect {adr : Addr} {l : CombinedLabel} (hpc : s.pc = ⟨.writeRead l, r⟩ :: rest) :
    Effect (.writeRead adr) s (.writeRead l) r (execWriteRead adr s) := by
  simp only [execWriteRead, hpc]
  cases l with
  | a0 => exact effect_callStmt_goto rfl rfl trivial rfl id
  | a1 => exact sendAddress_effect rfl trivial rfl (fun _ _ _ => rfl) fun _ h => by simpa [State.liveAt] using h
  | a2 => exact sendLoop_effect (.inr rfl) rfl fun h => by simp_all [State.liveAt]
  | a3 => exact effect_callStmt_goto rfl rfl trivial rfl id
  | a4 => exact sendAddress_effect rfl trivial rfl (fun _ _ _ => rfl) fun _ h => by simpa [State.liveAt] using h
  | a5 => exact receiveLoop_effect (.inr ⟨adr, rfl, rfl⟩) rfl fun h => by simp_all [State.liveAt]
  | a6 => exact effect_callStmt_goto rfl rfl trivial rfl id
  | a7 => exact .ret _ rfl

theorem execStart_effect {l : StartLabel} (hpc : s.pc = ⟨.start l, r⟩ :: rest) :
    Effect .start s (.start l) r (execStart s) := by
  simp only [execStart, hpc]
  cases l with
  | s0 => exact effect_callStmt rfl rfl trivial (by rintro v rfl; exact .move _ _ (.inr ⟨nofun, rfl⟩) rfl fun _ => rfl)
  | s1 =>
    refine effect_need (fun h => by simp [State.liveAt, h]) fun d _ => ?_
    split
    · exact effect_callStmt_goto rfl rfl trivial rfl fun _ => rfl
    · exact effect_goto rfl rfl fun _ => rfl
  | s2 | s3 | s4 => exact effect_callStmt_goto rfl rfl trivial rfl id
  | s5 => exact .ret _ rfl

theorem execStop_effect {l : StopLabel} (hpc : s.pc = ⟨.stop l, r⟩ :: rest) :
    Effect .stop s (.stop l) r (execStop s) := by
  simp only [execStop, hpc]
  cases l with
  | e0 => exact effect_callStmt_goto rfl rfl trivial rfl id
  | e1 => exact effect_callStmt rfl rfl trivial (by rintro v rfl; exact .move _ _ (.inr ⟨nofun, rfl⟩) rfl fun _ => rfl)
  | e2 =>
    refine effect_need (fun h => by simp [State.liveAt, h]) fun d _ => ?_
    split
    · exact .tail _ (.inl ⟨rfl, rfl⟩)
    · exact effect_goto rfl rfl fun _ => rfl
  | e3 => exact .ret _ rfl

theorem execReadBit_effect {l : ReadBitLabel} (hpc : s.pc = ⟨.readBit l, r⟩ :: rest) :
    Effect .readBit s (.readBit l) r (execReadBit s) := by
  simp only [execReadBit, hpc, Config.sampleViaLineController, if_true]
  cases l with
  | b0 | b1 | b3 | b4 => exact effect_callStmt_goto rfl rfl trivial rfl id
  | b2 => exact effect_callStmt rfl rfl trivial (by rintro v rfl; exact .move _ _ (.inr ⟨nofun, rfl⟩) rfl fun _ => rfl)
  | b5 => exact effect_need (fun h => by simp [State.liveAt, h]) fun _ _ => .ret _ rfl

theorem execWriteBit_effect {bit : Bit} {l : WriteBitLabel} (hpc : s.pc = ⟨.writeBit l, r⟩ :: rest) :
    Effect (.writeBit bit) s (.writeBit l) r (execWriteBit bit s) := by
  simp only [execWriteBit, hpc]
  cases l with
  | c0 =>
    dsimp only
    split <;> exact effect_callStmt_goto rfl rfl trivial rfl id
  | c1 | c2 | c3 => exact effect_callStmt_goto rfl rfl trivial rfl id
  | c4 => exact .ret _ rfl

theorem execWriteByte_effect {byte : Byte} {l : WriteByteLabel} (hpc : s.pc = ⟨.writeByte l, r⟩ :: rest) :
    Effect (.writeByte byte) s (.writeByte l) r (execWriteByte byte s) := by
  simp only [execWriteByte, hpc]
  cases l with
  | x0 =>
    refine effect_need (fun h => by simp [State.liveAt, h]) fun n hn => effect_callStmt rfl rfl trivial ?_
    rintro v rfl
    split
    · exact .move _ s.locals (.inr ⟨nofun, rfl⟩) rfl fun h => by simp_all [State.liveAt]
    · exact .move _ _ (.inr ⟨nofun, rfl⟩) rfl fun h => by simp_all [State.liveAt]
  | x1 =>
    refine effect_callStmt rfl rfl trivial ?_
    rintro v rfl
    exact .move _ _ (.inr ⟨nofun, rfl⟩) rfl fun h => by simpa [State.liveAt] using h
  | x2 => exact effect_need (fun h => by simp [State.liveAt, h]) fun _ _ => .ret _ rfl

theorem execReadByte_effect {sa : Bit} {l : ReadByteLabel} (hpc : s.pc = ⟨.readByte l, r⟩ :: rest) :
    Effect (.readByte sa) s (.readByte l) r (execReadByte sa s) := by
  simp only [execReadByte, hpc]
  cases l with
  | y0 => exact .move _ _ (.inl ⟨rfl, rfl⟩) rfl fun h => by simpa [State.liveAt] using h
  | y1 =>
    refine effect_callStmt rfl rfl trivial ?_
    rintro v rfl
    refine effect_need (fun h => by simp [State.liveAt, h]) fun x hx =>
      effect_need (fun h => by simp [State.liveAt, h]) fun n hn => ?_
    split <;> exact .move _ _ (.inr ⟨nofun, rfl⟩) rfl fun h => by simp_all [State.liveAt]
  | y2 => exact effect_callStmt_goto rfl rfl trivial rfl id
  | y3 => exact effect_need (fun h => by simp [State.liveAt, h]) fun _ _ => .ret _ rfl

theorem execRecover_effect {l : RecoverLabel} (hpc : s.pc = ⟨.recover l, r⟩ :: rest) :
    Effect .recover s (.recover l) r (execRecover s) := by
  simp only [execRecover, hpc]
  cases l with
  | v0 => exact effect_callStmt_goto rfl rfl trivial rfl id
  | v1 => exact .move _ _ (.inl ⟨rfl, rfl⟩) rfl fun _ => rfl
  | v2 => exact .move _ _ (.inl ⟨rfl, rfl⟩) rfl fun h => by simpa [State.liveAt] using h
  | v3 | v4 | v9 | v10 => exact effect_callStmt_goto rfl rfl trivial rfl id
  | v5 =>
    refine effect_need (fun h => by simp [State.liveAt, h]) fun n hn => ?_
    split <;> exact .move _ _ (.inl ⟨rfl, rfl⟩) rfl fun h => by simp_all [State.liveAt]
  | v6 => exact .delay _ _ rfl rfl id
  | v7 =>
    refine effect_callStmt rfl rfl trivial ?_
    rintro v rfl
    exact .move _ _ (.inr ⟨nofun, rfl⟩) rfl fun h => by simpa [State.liveAt] using h
  | v8 =>
    refine effect_need (fun h => by simp [State.liveAt, h]) fun n hn =>
      effect_need (fun h => by simp [State.liveAt, h]) fun d hd => ?_
    split <;> exact .move _ _ (.inl ⟨rfl, rfl⟩) rfl fun _ => rfl
  | v11 => exact .tail _ (.inr ⟨rfl, rfl⟩)

theorem execPull_effect {L : Line} {l : PullLabel} (hpc : s.pc = ⟨.pull l, r⟩ :: rest) :
    Effect (.pull L) s (.pull l) r (execPull L s) := by
  simp only [execPull, hpc]
  cases l with
  | p0 => exact effect_pinSetDir (.pullDir L) id
  | p1 => exact effect_pinSetVal (.pullVal L) id
  | p2 => exact .delay _ _ rfl rfl id
  | p3 => exact .ret _ rfl

theorem execRelease_effect {L : Line} {l : ReleaseLabel} (hpc : s.pc = ⟨.release l, r⟩ :: rest) :
    Effect (.release L) s (.release l) r (execRelease L s) := by
  simp only [execRelease, hpc]
  cases l with
  | l0 => exact effect_pinSetDir (.releaseDir L) id
  | l1 => exact .delay _ _ rfl rfl id
  | l2 =>
    exact effect_pinGetVal (fun v l => { l with releaseV := some v }) (.releaseVal L) (fun _ => rfl)
      (fun _ => ⟨rfl, rfl⟩)
      fun _ h => by simpa [State.liveAt] using h
  | l3 => exact effect_need (fun h => by simp [State.liveAt, h]) fun _ _ => .ret _ rfl

theorem execWaitClockReleased_effect {l : WaitLabel} (hpc : s.pc = ⟨.waitClockReleased l, r⟩ :: rest) :
    Effect .waitClockReleased s (.waitClockReleased l) r (execWaitClockReleased s) := by
  simp only [execWaitClockReleased, hpc]
  cases l with
  | w0 => exact effect_pinSetDir .waitDir id
  | w1 | w4 => exact .delay _ _ rfl rfl id
  | w2 =>
    exact effect_pinGetVal (fun v l => { l with waitV := some v }) .waitVal (fun _ => rfl)
      (fun _ => ⟨rfl, rfl⟩) fun _ _ => rfl
  | w3 =>
    refine effect_need (fun h => by simp [State.liveAt, h]) fun v _ => ?_
    split
    · exact .delay _ _ rfl rfl fun _ => rfl
    · exact effect_goto rfl rfl fun _ => rfl
  | w5 => exact .ret _ rfl

theorem execReadDataIdle_effect {l : IdleLabel} (hpc : s.pc = ⟨.readDataIdle l, r⟩ :: rest) :
    Effect .readDataIdle s (.readDataIdle l) r (execReadDataIdle s) := by
  simp only [execReadDataIdle, hpc]
  cases l with
  | i0 => exact effect_pinSetDir .idleDir id
  | i1 => exact .delay _ _ rfl rfl id
  | i2 =>
    exact effect_pinGetVal (fun v l => { l with idleV := some v }) .idleVal (fun _ => rfl)
      (fun _ => ⟨rfl, rfl⟩) fun _ _ => rfl
  | i3 => exact effect_need (fun h => by simp [State.liveAt, h]) fun _ _ => .ret _ rfl

/-- Whatever operation's frame is on top, its statement has one of these effects. -/
theorem exec_effect {i : Instr} {p : Pos} (hpc : s.pc = ⟨p, r⟩ :: rest) (hop : opOf i = p.op) :
    Effect i s p r (exec i s) := by
  cases p <;> cases i <;> cases hop
  · exact execNew_effect hpc
  · exact execWrite_effect hpc
  · exact execRead_effect hpc
  · exact execWriteRead_effect hpc
  · exact execStart_effect hpc
  · exact execStop_effect hpc
  · exact execWriteBit_effect hpc
  · exact execReadBit_effect hpc
  · exact execWriteByte_effect hpc
  · exact execReadByte_effect hpc
  · exact execRecover_effect hpc
  · exact execPull_effect hpc
  · exact execRelease_effect hpc
  · exact execWaitClockReleased_effect hpc
  · exact execReadDataIdle_effect hpc

end

end Sys2Proof.Machine
end


section
/-! SUPPORT. What a step can do, said once: the host's part, an accepted command, a statement. The invariants that need
no more than which fields it writes, and the settlement of O44 to O49, O51, O54 to O56 and O58. -/

namespace Sys2Proof.Machine

/-! ### The fields of the state after a pin event -/

@[simp] theorem State.observed_freq (e : Event) (s : State) : (s.observed e).freq = s.freq := rfl
@[simp] theorem State.observed_halfUs (e : Event) (s : State) : (s.observed e).halfUs = s.halfUs := rfl
@[simp] theorem State.observed_cmd (e : Event) (s : State) : (s.observed e).cmd = s.cmd := rfl
@[simp] theorem State.observed_status (e : Event) (s : State) : (s.observed e).status = s.status := rfl
@[simp] theorem State.observed_result (e : Event) (s : State) : (s.observed e).result = s.result := rfl
@[simp] theorem State.observed_wlen (e : Event) (s : State) : (s.observed e).wlen = s.wlen := rfl
@[simp] theorem State.observed_rlen (e : Event) (s : State) : (s.observed e).rlen = s.rlen := rfl
@[simp] theorem State.observed_wbuf (e : Event) (s : State) : (s.observed e).wbuf = s.wbuf := rfl
@[simp] theorem State.observed_rbuf (e : Event) (s : State) : (s.observed e).rbuf = s.rbuf := rfl
@[simp] theorem State.observed_adr (e : Event) (s : State) : (s.observed e).adr = s.adr := rfl
@[simp] theorem State.observed_wl (e : Event) (s : State) : (s.observed e).wl = s.wl := rfl
@[simp] theorem State.observed_rl (e : Event) (s : State) : (s.observed e).rl = s.rl := rfl
@[simp] theorem State.observed_locals (e : Event) (s : State) : (s.observed e).locals = s.locals := rfl
@[simp] theorem State.observed_pc (e : Event) (s : State) : (s.observed e).pc = s.pc := rfl
@[simp] theorem State.observed_responses (e : Event) (s : State) : (s.observed e).responses = s.responses := rfl
@[simp] theorem State.observed_requests (e : Event) (s : State) : (s.observed e).requests = s.requests := rfl
@[simp] theorem State.observed_busy (e : Event) (s : State) : (s.observed e).busy = s.busy := rfl
@[simp] theorem State.observed_configured (e : Event) (s : State) : (s.observed e).configured = s.configured := rfl
@[simp] theorem State.observed_trace (e : Event) (s : State) : (s.observed e).trace = e :: s.trace := rfl
@[simp] theorem State.observed_lines (e : Event) (s : State) : (s.observed e).lines = e.lines s.lines := rfl

/-! ### A step -/

/-- What a step can make of a state. A statement is run on the state with the host's list moved on. -/
inductive StepEffect (s : State) : Out → Prop
  /-- The host writes FREQ, a length or a buffer byte where it may, reads, or is refused; or nothing runs. -/
  | host (freq : Freq) (wlen rlen : Word) (wbuf rbuf : Memory) (resps : List Response) (rs : List Request) (n : Nat)
      (hfreq : freq = s.freq ∨ (s.configured = false ∧ s.busy = false))
      (hwbuf : Memory.wf .wbuf s.wbuf → Memory.wf .wbuf wbuf) (hrbuf : Memory.wf .rbuf s.rbuf → Memory.wf .rbuf rbuf)
      (hresps : resps ≠ .ok :: s.responses) :
      StepEffect s (.next { s with
        freq := freq, wlen := wlen, rlen := rlen, wbuf := wbuf, rbuf := rbuf, responses := resps, requests := rs
        freeIdx := n })
  | accepted (i : Instr) (rs : List Request) (hi : i.isCommand = true) (h : s.refusal i = none) :
      StepEffect s (.next (State.accept i { s with requests := rs }))
  | reset (hdue : s.due = some .hardwareReset) : StepEffect s (.refused .midLifeReset)
  /-- An operand register of the frame on top holds no value. -/
  | unlatched (p : Pos) (r : Option Byte) (rest : List Frame) (hpc : s.pc = ⟨p, r⟩ :: rest) (h : s.liveAt p = false) :
      StepEffect s (.fault .unwrittenLocal)
  | statement (i : Instr) (p : Pos) (r : Option Byte) (rest : List Frame) (rs : List Request) (o : Out)
      (hpc : s.pc = ⟨p, r⟩ :: rest) (hop : opOf i = p.op) (hi : s.operationAt p = some i ∨ i.isCommand = true)
      (he : Effect i { s with requests := rs } p r o) : StepEffect s o

/-- With no frame of its own on top an operation is issued or called (log 18). -/
theorem exec_top_or_begin (i : Instr) (s : State) :
    (∃ p r rest, s.pc = ⟨p, r⟩ :: rest ∧ opOf i = p.op) ∨
      exec i s = .next (if i.isCommand = true then s.issue i else s.call i) := by
  cases i <;>
    simp only [exec, execNew, execWrite, execRead, execWriteRead, execStart, execStop, execWriteBit, execReadBit,
      execWriteByte, execReadByte, execRecover, execPull, execRelease, execWaitClockReleased, execReadDataIdle] <;>
    split
  all_goals first
    | exact .inl ⟨_, _, _, ‹_›, rfl⟩
    | exact .inr rfl

/-- An operation has no operands only where the frame on top holds none. -/
theorem liveAt_of_operationAt_none {s : State} {p : Pos} (h : s.operationAt p = none) : s.liveAt p = false := by
  cases p <;> simp_all [State.operationAt, State.liveAt]

section

variable {s : State} {rs : List Request}

/-- The host's part that leaves FREQ and the buffers alone. -/
theorem hostEffect_responds (wlen rlen : Word) (n : Nat) {x : Response} (hx : x ≠ .ok) :
    StepEffect s (.next { s with
      wlen := wlen, rlen := rlen, responses := x :: s.responses, requests := rs, freeIdx := n }) :=
  .host s.freq wlen rlen s.wbuf s.rbuf _ rs n (.inl rfl) id id fun h => hx (List.cons.inj h).1

theorem hostEffect_refuse (r : RefuseReason) :
    StepEffect s (.next (State.refuse r { s with requests := rs })) := hostEffect_responds s.wlen s.rlen s.freeIdx nofun

theorem writeBuf_effect (b : Buf) (i : Nat) (v : Byte) :
    StepEffect s (.next (State.writeBuf b i v { s with requests := rs })) := by
  cases h : State.bufRefused i { s with requests := rs } with
  | true =>
    rw [State.writeBuf_of_refused h]
    exact hostEffect_refuse _
  | false =>
    rw [State.writeBuf_of_free h]
    have hi := (State.bufRefused_eq_false.mp h).2
    cases b with
    | wbuf =>
      exact .host s.freq s.wlen s.rlen _ s.rbuf _ rs s.freeIdx (.inl rfl) (Memory.write_wf v · hi) id
        fun h => nomatch (List.cons.inj h).1
    | rbuf =>
      exact .host s.freq s.wlen s.rlen s.wbuf _ _ rs s.freeIdx (.inl rfl) id (Memory.write_wf v · hi)
        fun h => nomatch (List.cons.inj h).1

theorem readBuf_effect (b : Buf) (i : Nat) : StepEffect s (.next (State.readBuf b i { s with requests := rs })) := by
  cases h : State.bufRefused i { s with requests := rs } with
  | true =>
    rw [State.readBuf_of_refused h]
    exact hostEffect_refuse _
  | false =>
    rw [State.readBuf_of_free h]
    exact hostEffect_responds s.wlen s.rlen s.freeIdx nofun

theorem readReg_effect (r : Reg) : StepEffect s (.next (State.readReg r { s with requests := rs })) := by
  cases r with
  | errKind =>
    dsimp only [State.readReg]
    split
    · exact hostEffect_responds s.wlen s.rlen s.freeIdx nofun
    · exact hostEffect_responds s.wlen s.rlen (s.freeIdx + 1) nofun
  | cmd => exact hostEffect_responds s.wlen s.rlen (s.freeIdx + 1) nofun
  | status | result | freq | halfUs | wlen | rlen => exact hostEffect_responds s.wlen s.rlen s.freeIdx nofun

/-- A command run by the host's write: the statement of its frame (log 24), or its issue. -/
theorem command_effect {i : Instr} (hi : i.isCommand = true) : StepEffect s (exec i { s with requests := rs }) := by
  rcases exec_top_or_begin i { s with requests := rs } with ⟨p, r, rest, hpc, hop⟩ | he
  · exact .statement i p r rest rs _ hpc hop (.inr hi) (exec_effect hpc hop)
  · rw [he, if_pos hi]
    rcases State.issue_cases i { s with requests := rs } with ⟨r, -, h⟩ | ⟨hnone, h⟩ <;> rw [h]
    · exact hostEffect_refuse r
    · exact .accepted i rs hi hnone

theorem writeReg_effect (r : Reg) (w : Word) : StepEffect s (State.writeReg r w { s with requests := rs }) := by
  cases r with
  | cmd =>
    dsimp only [State.writeReg, State.writeCmd]
    split
    · exact hostEffect_refuse _
    · split
      · exact command_effect (decodeCommand_eq_some_iff.mp ‹_›).2
      · exact hostEffect_refuse _
  | freq =>
    dsimp only [State.writeReg]
    split
    · exact hostEffect_refuse _
    · rename_i h
      rw [Bool.or_eq_true, not_or, Bool.not_eq_true, Bool.not_eq_true] at h
      exact .host w s.wlen s.rlen s.wbuf s.rbuf _ rs s.freeIdx (.inr h) id id fun h => nomatch (List.cons.inj h).1
  | wlen =>
    dsimp only [State.writeReg]
    split
    · exact hostEffect_refuse _
    · exact hostEffect_responds w s.rlen s.freeIdx nofun
  | rlen =>
    dsimp only [State.writeReg]
    split
    · exact hostEffect_refuse _
    · exact hostEffect_responds s.wlen w s.freeIdx nofun
  | status | result | errKind | halfUs => exact hostEffect_refuse _

theorem hostAccess_effect {a : HostAction} (ha : a = .hardwareReset → s.due = some .hardwareReset) :
    StepEffect s (hostAccess a { s with requests := rs }) := by
  cases a with
  | writeReg r w => exact writeReg_effect r w
  | readReg r => exact readReg_effect r
  | writeBuf b i v => exact writeBuf_effect b i v
  | readBuf b i => exact readBuf_effect b i
  | hardwareReset => exact .reset (ha rfl)

end

/-- What any step is (R7, R28, R72). -/
theorem step_effect (s : State) : StepEffect s (step s) := by
  rcases step_cases s with ⟨a, hdue, h⟩ | ⟨-, h⟩ <;> rw [h]
  · exact hostAccess_effect (rs := s.requests.tail) fun ha => ha ▸ hdue
  · rcases sequencerStep_cases s.tick with ⟨-, h⟩ | ⟨⟨p, r⟩, rest, hpc, h⟩ <;> rw [h]
    · exact .host s.freq s.wlen s.rlen s.wbuf s.rbuf s.responses _ s.freeIdx (.inl rfl) id id
        (List.cons_ne_self _ _).symm
    · cases hi : s.tick.operationAt p with
      | none => exact .unlatched p r rest hpc (liveAt_of_operationAt_none hi)
      | some i =>
        have hop := State.operationAt_op hi
        exact .statement i p r rest _ _ hpc hop (.inl hi) (exec_effect (s := s.tick) hpc hop)

theorem stepEffect_of_step {s t : State} (h : step s = .next t) : StepEffect s (.next t) := h ▸ step_effect s

/-! ### BUSY, the stack and the registers between commands -/

/-- Between commands no operation register and no latched operand holds a value, and BUSY is 0. -/
def State.resting (s : State) : Prop :=
  s.pc = [] ∧ s.busy = false ∧ s.locals = Locals.dead ∧ s.adr = none ∧ s.wl = none ∧ s.rl = none

theorem State.raise_resting (c : Cause) (s : State) : (s.raise c).resting :=
  ⟨rfl, s.raise_busy c, rfl, rfl, rfl, rfl⟩

theorem State.endCommand_resting (s : State) : s.endCommand.resting := ⟨rfl, s.endCommand_busy, rfl, rfl, rfl, rfl⟩

section

variable {i : Instr} {s t : State} {p : Pos} {r : Option Byte} {rest : List Frame}

/-- A statement leaves the command running, or ends it. -/
theorem Effect.runs_or_rests (h : Effect i s p r (.next t)) (hpc : s.pc = ⟨p, r⟩ :: rest) :
    (t.pc ≠ [] ∧ t.busy = s.busy) ∨ t.resting := by
  cases h with
  | move | call | delay | event | positive | store => exact .inl (by simp [State.busy])
  | configure => exact .inl ⟨nofun, s.setConfigured_busy true⟩
  | tail c => rw [State.tailcall_top hpc]; exact .inl ⟨nofun, rfl⟩
  | pinFault | zero => exact .inr (State.raise_resting _ _)
  | ret v =>
    cases rest with
    | nil => rw [State.ret_bottom hpc]; exact .inr s.endCommand_resting
    | cons g gs => rw [State.ret_caller hpc]; exact .inl ⟨nofun, rfl⟩

theorem busyInv_of_busy (hb : s.busy = true) (hpc : s.pc ≠ []) : s.busyInv := iff_of_true hb hpc

theorem State.resting.busyInv (h : s.resting) : s.busyInv := by
  obtain ⟨hpc, hb, -⟩ := h
  exact iff_of_false (by simp [hb]) (by simp [hpc])

theorem State.resting.idleInv (h : s.resting) : s.idleInv := by
  obtain ⟨-, -, hl, hadr, hwl, hrl⟩ := h
  exact fun _ => ⟨hl, hadr, hwl, hrl⟩

theorem State.accept_pc (i : Instr) (s : State) : (s.accept i).pc = [⟨entryOf i, none⟩] := (s.accept_fields i).1

/-- R27 is kept. -/
theorem step_busyInv (h : s.busyInv) (hstep : step s = .next t) : t.busyInv := by
  cases stepEffect_of_step hstep with
  | host => exact h
  | accepted i rs => exact busyInv_of_busy (State.accept_busy i _) (by rw [State.accept_pc]; nofun)
  | statement i p r rest rs _ hpc _ _ he =>
    rcases he.runs_or_rests hpc with ⟨hne, hb⟩ | hrest
    · exact busyInv_of_busy (hb.trans (h.mpr (by rw [hpc]; nofun))) hne
    · exact hrest.busyInv

/-- R33, R34 are kept. -/
theorem step_idleInv (h : s.idleInv) (hstep : step s = .next t) : t.idleInv := by
  cases stepEffect_of_step hstep with
  | host => exact h
  | accepted i rs => exact fun hpc => nomatch (State.accept_pc i _).symm.trans hpc
  | statement i p r rest rs _ hpc _ _ he =>
    rcases he.runs_or_rests hpc with ⟨hne, -⟩ | hrest
    · exact fun hnil => absurd hnil hne
    · exact hrest.idleInv

/-! ### STATUS and RESULT -/

theorem Cause.code_toNat_lt (c : Cause) : c.code.toNat < 4 := by
  cases c <;> simp [Cause.code, resultPinFault, resultDivFault]

theorem State.raise_reservedInv (c : Cause) (s : State) : (s.raise c).reservedInv :=
  ⟨statusWord_toNat_lt _ _, c.code_toNat_lt⟩

theorem Effect.reservedInv (h : Effect i s p r (.next t)) (hpc : s.pc = ⟨p, r⟩ :: rest)
    (hs : s.reservedInv) :
    t.reservedInv := by
  cases h with
  | move | call | delay | event | positive | store => simpa [State.reservedInv] using hs
  | configure => exact ⟨statusWord_toNat_lt _ _, hs.2⟩
  | tail c => rw [State.tailcall_top hpc]; exact hs
  | pinFault | zero => exact State.raise_reservedInv _ _
  | ret v =>
    cases rest with
    | nil => rw [State.ret_bottom hpc]; exact ⟨statusWord_toNat_lt _ _, by simp [resultOk]⟩
    | cons g gs => rw [State.ret_caller hpc]; exact hs

theorem State.accept_result (i : Instr) (s : State) : (s.accept i).result = s.result := by
  unfold State.accept
  split <;> rfl

/-- R23 is kept. -/
theorem step_reservedInv (h : s.reservedInv) (hstep : step s = .next t) : t.reservedInv := by
  cases stepEffect_of_step hstep with
  | host => exact h
  | accepted i rs =>
    obtain ⟨-, hstatus, -, -⟩ := State.accept_fields i { s with requests := rs }
    exact ⟨by rw [hstatus]; exact statusWord_toNat_lt _ _, by rw [State.accept_result]; exact h.2⟩
  | statement i p r rest rs _ hpc _ _ he => exact he.reservedInv hpc h

/-! ### What no statement writes (R21, R22, R52) -/

/-- The registers and buffers of the host, the lengths and FREQ among them, that no statement writes; CMD and CONFIGURED
but for acceptance and NEW. -/
theorem Effect.frame (h : Effect i s p r (.next t)) (hpc : s.pc = ⟨p, r⟩ :: rest) :
    t.freq = s.freq ∧ t.wlen = s.wlen ∧ t.rlen = s.rlen ∧ t.wbuf = s.wbuf ∧ t.cmd = s.cmd := by
  cases h with
  | move | call | delay | event | positive | store | configure | pinFault | zero => simp
  | tail c => rw [State.tailcall_top hpc]; exact ⟨rfl, rfl, rfl, rfl, rfl⟩
  | ret v =>
    cases rest with
    | nil => rw [State.ret_bottom hpc]; exact ⟨rfl, rfl, rfl, rfl, rfl⟩
    | cons g gs => rw [State.ret_caller hpc]; exact ⟨rfl, rfl, rfl, rfl, rfl⟩

/-- HALF_US and CONFIGURED change only at N3 of NEW. -/
theorem Effect.configuration (h : Effect i s p r (.next t)) (hpc : s.pc = ⟨p, r⟩ :: rest) :
    (t.halfUs = s.halfUs ∧ t.configured = s.configured) ∨
      (i = .new ∧ p = .new .n3 ∧ t.configured = true ∧ t.halfUs = halfPeriod s.freq) := by
  cases h with
  | move | call | delay | event | positive | store => exact .inl (by simp [State.configured])
  | pinFault | zero => exact .inl (by simp)
  | configure hi hp => exact .inr ⟨hi, hp, s.setConfigured_configured true, rfl⟩
  | tail c => rw [State.tailcall_top hpc]; exact .inl ⟨rfl, rfl⟩
  | ret v =>
    cases rest with
    | nil => rw [State.ret_bottom hpc]; exact .inl ⟨rfl, s.endCommand_configured⟩
    | cons g gs => rw [State.ret_caller hpc]; exact .inl ⟨rfl, rfl⟩

/-- RBUF changes only where READ and WRITE_READ store a byte, below `BUF_MAX`. -/
theorem Effect.receives (h : Effect i s p r (.next t)) (hpc : s.pc = ⟨p, r⟩ :: rest) :
    t.rbuf = s.rbuf ∨ (((∃ adr, i = .read adr) ∨ ∃ adr, i = .writeRead adr) ∧
      ∃ j v, j < Config.bufMax ∧ t.rbuf = Memory.write .rbuf s.rbuf j v) := by
  cases h with
  | move | call | delay | event | positive | configure | pinFault | zero => exact .inl (by simp)
  | store j v hi _ _ hfit =>
    exact .inr ⟨hi.imp (fun ⟨a, h, _⟩ => ⟨a, h⟩) fun ⟨a, h, _⟩ => ⟨a, h⟩, j, v, hfit, rfl⟩
  | tail c => rw [State.tailcall_top hpc]; exact .inl rfl
  | ret v =>
    cases rest with
    | nil => rw [State.ret_bottom hpc]; exact .inl rfl
    | cons g gs => rw [State.ret_caller hpc]; exact .inl rfl

/-- A statement issues at most one event, its pin event or a delay. -/
theorem Effect.trace (h : Effect i s p r (.next t)) (hpc : s.pc = ⟨p, r⟩ :: rest) :
    t.trace = s.trace ∨ ∃ e, t.trace = e :: s.trace ∧ ((∃ q, Issues i p e q) ∨ ∃ us, e = .delay us) := by
  cases h with
  | move | call | positive | configure | zero | store => exact .inl (by simp)
  | delay us => exact .inr ⟨.delay us, rfl, .inr ⟨us, rfl⟩⟩
  | event e q _ he => exact .inr ⟨e, rfl, .inl ⟨q, he⟩⟩
  | pinFault e _ q he => exact .inr ⟨e, rfl, .inl ⟨q, he⟩⟩
  | tail c => rw [State.tailcall_top hpc]; exact .inl rfl
  | ret v =>
    cases rest with
    | nil => rw [State.ret_bottom hpc]; exact .inl rfl
    | cons g gs => rw [State.ret_caller hpc]; exact .inl rfl

/-- No statement sets a line to 1 (R8). -/
theorem Issues.setVal_zero {L : Line} {v : Bit} {a : Ack} (h : Issues i p (.setVal L v a) q) : v = 0 := by
  cases h
  rfl

/-! ### Acceptance and calls -/

theorem State.accept_frame (i : Instr) (s : State) :
    (s.accept i).freq = s.freq ∧ (s.accept i).wlen = s.wlen ∧ (s.accept i).rlen = s.rlen ∧
      (s.accept i).wbuf = s.wbuf ∧ (s.accept i).halfUs = s.halfUs ∧ (s.accept i).configured = s.configured ∧
      (s.accept i).rbuf = s.rbuf := by
  have hc : (s.accept i).configured = s.configured := by
    obtain ⟨-, hstatus, -, -⟩ := s.accept_fields i
    rw [State.configured, hstatus, statusWord_bit0]
  refine ⟨?_, ?_, ?_, ?_, ?_, hc, ?_⟩ <;> (unfold State.accept; split <;> rfl)

/-- What runs an operation: its own statement, a call, a refusal or an acceptance. -/
theorem exec_cases {o : Out} (he : exec i s = o) :
    (∃ p r rest, s.pc = ⟨p, r⟩ :: rest ∧ Effect i s p r o) ∨ o = .next (s.call i) ∨
      (∃ r, o = .next (s.respond (.refused r))) ∨ (i.isCommand = true ∧ o = .next (s.accept i)) := by
  subst he
  rcases exec_top_or_begin i s with ⟨p, r, rest, hpc, hop⟩ | he
  · exact .inl ⟨p, r, rest, hpc, exec_effect hpc hop⟩
  · rw [he]
    split
    · rcases State.issue_cases i s with ⟨r, -, h⟩ | ⟨-, h⟩ <;> rw [h]
      · exact .inr (.inr (.inl ⟨r, rfl⟩))
      · exact .inr (.inr (.inr ⟨‹_›, rfl⟩))
    · exact .inr (.inl rfl)

/-! ### The configuration (R21, R130) -/

/-- The labels of NEW at which FREQ has passed the zero test and HALF_US is not yet written. -/
def Pos.pastZeroTest : Pos → Bool
  | .new .n1 | .new .n2 | .new .n3 => true
  | _ => false

theorem Pos.pastZeroTest_iff (p : Pos) : p.pastZeroTest = true ↔ p = .new .n1 ∨ p = .new .n2 ∨ p = .new .n3 := by
  unfold Pos.pastZeroTest
  split <;> simp_all

/-- Only a label past the zero test steps to one: N0's own `goto` is apart. -/
theorem Pos.pastZeroTest_of_steps {p q : Pos} (hq : p.steps q = true) (h : q.pastZeroTest = true) :
    p.pastZeroTest = true := by
  unfold Pos.steps at hq
  split at hq <;> trivial

theorem Pos.not_pastZeroTest_of_resumes {p q : Pos} (hq : p.resumes q = true) : q.pastZeroTest = false := by
  unfold Pos.resumes at hq
  split at hq <;> trivial

theorem entryOf_not_pastZeroTest (c : Instr) : (entryOf c).pastZeroTest = false := by cases c <;> rfl

/-- A frame past the zero test is one that was there, or N1 after a test that FREQ passed. -/
theorem Effect.pastZeroTest (h : Effect i s p r (.next t)) (hpc : s.pc = ⟨p, r⟩ :: rest)
    (hs : ∀ f ∈ s.pc, f.pos.pastZeroTest = true → s.freq ≠ 0) :
    ∀ f ∈ t.pc, f.pos.pastZeroTest = true → s.freq ≠ 0 := by
  rw [hpc, List.forall_mem_cons] at hs
  obtain ⟨hp, hrest⟩ := hs
  have hstep (q : Pos) (hq : p.steps q = true) (h : q.pastZeroTest = true) : s.freq ≠ 0 :=
    hp (Pos.pastZeroTest_of_steps hq h)
  have hentry (c : Instr) (h : (entryOf c).pastZeroTest = true) : s.freq ≠ 0 :=
    absurd h (by simp [entryOf_not_pastZeroTest])
  cases h with
  | move q l hq =>
    simp only [State.goto_pc, State.setLocals_pc, hpc, List.tail_cons, List.forall_mem_cons]
    exact ⟨hq.elim (fun h => hstep q h.1) fun ⟨_, h⟩ hz => absurd hz
      (by simp [Pos.not_pastZeroTest_of_resumes h]), hrest⟩
  | call c =>
    simp only [State.call_pc, State.setLocals_pc, hpc, List.forall_mem_cons]
    exact ⟨hentry c, hp, hrest⟩
  | tail c =>
    simp only [State.tailcall_top hpc, List.forall_mem_cons]
    exact ⟨hentry c, hrest⟩
  | ret v =>
    cases rest with
    | nil => simp [State.ret_bottom hpc]
    | cons g gs =>
      rw [List.forall_mem_cons] at hrest
      simp only [State.ret_caller hpc, List.forall_mem_cons]
      exact hrest
  | delay us q hq =>
    simp only [State.goto_pc, State.delay_pc, hpc, List.tail_cons, List.forall_mem_cons]
    exact ⟨hstep q hq, hrest⟩
  | event e q l he =>
    simp only [State.goto_pc, State.setLocals_pc, State.observed_pc, hpc, List.tail_cons, List.forall_mem_cons]
    exact ⟨hstep q he.steps, hrest⟩
  | pinFault | zero => simp
  | positive _ _ hfreq => exact fun _ _ _ => hfreq
  | configure _ hp' => exact fun _ _ _ => hp (by rw [hp']; rfl)
  | store j v hi =>
    simp only [State.goto_pc, State.setLocals_pc, hpc, List.tail_cons, List.forall_mem_cons]
    exact ⟨hp, hrest⟩

/-- R21 is kept. -/
theorem step_configInv (h : s.configInv) (hstep : step s = .next t) : t.configInv := by
  obtain ⟨hbusy, hconf, hnew⟩ := h
  refine ⟨step_busyInv hbusy hstep, ?_⟩
  cases stepEffect_of_step hstep with
  | host freq _ _ _ _ _ _ _ hfreq =>
    rcases hfreq with rfl | ⟨hc, hb⟩
    · exact ⟨hconf, hnew⟩
    · have hpc : s.pc = [] := by
        by_contra hne
        exact absurd (hbusy.mpr hne) (by simp [hb])
      exact ⟨fun hc' => absurd (hc.symm.trans hc') nofun, fun f hf => nomatch hpc ▸ hf⟩
  | accepted i rs =>
    obtain ⟨hf, -, -, -, hh, hc, -⟩ := State.accept_frame i { s with requests := rs }
    rw [hc, hf, hh]
    refine ⟨hconf, fun f hf' hz => ?_⟩
    rw [State.accept_pc, List.mem_singleton] at hf'
    subst hf'
    rw [← Pos.pastZeroTest_iff, entryOf_not_pastZeroTest] at hz
    exact nomatch hz
  | statement i p r rest rs _ hpc _ _ he =>
    obtain ⟨hfreq, -⟩ := he.frame hpc
    have hpast := he.pastZeroTest hpc (by simpa only [Pos.pastZeroTest_iff] using hnew)
    simp only [Pos.pastZeroTest_iff] at hpast
    rw [hfreq]
    refine ⟨fun hc => ?_, hpast⟩
    rcases he.configuration hpc with ⟨hh, hc'⟩ | ⟨-, hp, -, hh⟩
    · rw [hh]
      exact hconf (hc'.symm.trans hc)
    · have hf : s.freq ≠ 0 := hnew ⟨p, r⟩ (by simp [hpc]) (by simp [hp])
      exact ⟨hf, by rw [hh]; exact halfPeriod_toNat hf⟩

/-- The canonical form is kept. -/
theorem step_buffersInv (h : s.buffersInv) (hstep : step s = .next t) : t.buffersInv := by
  obtain ⟨hw, hr⟩ := h
  cases stepEffect_of_step hstep with
  | host _ _ _ _ _ _ _ _ _ hwbuf hrbuf => exact ⟨hwbuf hw, hrbuf hr⟩
  | accepted i rs =>
    obtain ⟨-, -, -, hw', -, -, hr'⟩ := State.accept_frame i { s with requests := rs }
    exact ⟨by rw [hw']; exact hw, by rw [hr']; exact hr⟩
  | statement i p r rest rs _ hpc _ _ he =>
    obtain ⟨-, -, -, hw', -⟩ := he.frame hpc
    refine ⟨by rw [hw']; exact hw, ?_⟩
    rcases he.receives hpc with hr' | ⟨-, j, v, hfit, hr'⟩ <;> rw [hr']
    · exact hr
    · exact Memory.write_wf v hr hfit

end

end Sys2Proof.Machine

open Sys2Proof Sys2Proof.Machine

/-- Settles O45: a statement leaves BUSY and a frame, or ends the command and clears both. -/
theorem busyExactlyWhileRunning : Obligations.BusyExactlyWhileRunning := fun _ _ => step_busyInv

/-- Settles O46: FREQ is written only while neither configured nor busy, and HALF_US only at N3, after the zero test. -/
theorem configuredFrequencyStays : Obligations.ConfiguredFrequencyStays := fun _ _ => step_configInv

/-- Settles O44: STATUS is written from its two bits, RESULT with an outcome code. -/
theorem reservedBitsStayZero : Obligations.ReservedBitsStayZero := fun _ _ => step_reservedInv

/-- Settles O47: every write of a buffer is `Memory.write` below `BUF_MAX`. -/
theorem buffersStayCanonical : Obligations.BuffersStayCanonical := fun _ _ => step_buffersInv

/-- Settles O51: both ends of a command clear every register and latched operand. -/
theorem nothingCarriesOver : Obligations.NothingCarriesOver := fun _ _ h _ => step_idleInv h

/-- Settles O55. -/
theorem whatTheEngineWrites : Obligations.WhatTheEngineWrites := by
  intro i s t he
  rcases exec_cases he with ⟨p, r, rest, hpc, h⟩ | h | ⟨r, h⟩ | ⟨-, h⟩
  · obtain ⟨hf, hw, hr, hwb, hcmd⟩ := h.frame hpc
    refine ⟨hf, hw, hr, hwb, fun hi => ?_, fun hi => ?_, .inl hcmd⟩
    · exact (h.configuration hpc).resolve_right fun ⟨hnew, _⟩ => hi hnew
    · refine (h.receives hpc).resolve_right ?_
      rintro ⟨⟨adr, h⟩ | ⟨adr, h⟩, -⟩
      · exact (hi adr).1 h
      · exact (hi adr).2 h
  · cases h
    exact ⟨rfl, rfl, rfl, rfl, fun _ => ⟨rfl, rfl⟩, fun _ => rfl, .inl rfl⟩
  · cases h
    exact ⟨rfl, rfl, rfl, rfl, fun _ => ⟨rfl, rfl⟩, fun _ => rfl, .inl rfl⟩
  · cases h
    obtain ⟨hf, hw, hr, hwb, hh, hc, hrb⟩ := s.accept_frame i
    obtain ⟨hpc, -, -, hcmd⟩ := s.accept_fields i
    exact ⟨hf, hw, hr, hwb, fun _ => ⟨hh, hc⟩, fun _ => hrb, .inr ⟨hcmd, hpc⟩⟩

/-- Settles O56. -/
theorem atMostOneEventAStep : Obligations.AtMostOneEventAStep := by
  intro i s t he
  rcases exec_cases he with ⟨p, r, rest, hpc, h⟩ | h | ⟨r, h⟩ | ⟨hi, h⟩
  · rcases h.trace hpc with h | ⟨e, h, hissues | ⟨us, rfl⟩⟩
    · exact .inl h
    · exact .inr (.inl ⟨e, h, by rintro L v a rfl; exact hissues.choose_spec.setVal_zero⟩)
    · exact .inr (.inl ⟨.delay us, h, nofun⟩)
  · cases h
    exact .inl rfl
  · cases h
    exact .inl rfl
  · cases h
    obtain ⟨hpc, -, htrace, -⟩ := s.accept_fields i
    exact .inr (.inr ⟨hi, htrace, hpc⟩)

/-- Settles O58: the store of a received byte is one `Memory.write` of RBUF. -/
theorem receivedByteFrame : Obligations.ReceivedByteFrame := by
  intro adr s rest j v hj i p hip hpc
  have hloop : exec i s = s.receiveLoop (some v) p (if i = .read adr then .read .a3 else .writeRead .a6) := by
    rcases hip with ⟨rfl, rfl⟩ | ⟨rfl, rfl⟩ <;> simp [exec, execRead, execWriteRead, hpc]
  rw [hloop]
  refine ⟨fun hfit => ?_, fun hout => State.receiveLoop_outside hj hout v⟩
  exact ⟨_, State.receiveLoop_store hj hfit v, Memory.read_write_self _ _ _ _,
    fun k hk => Memory.read_write_other _ _ _ hk, fun k => rfl⟩
end


section
/-! SUPPORT. The control stack as a chain of outstanding calls (R27, R73), the registers every frame on it relies on
(R25, R53), and the settlement of O48, O49, O50 and O54. -/

namespace Sys2Proof.Machine

/-! ### Moves on the stack -/

theorem Pos.op_of_steps {p q : Pos} (h : p.steps q = true) : q.op = p.op := by
  unfold Pos.steps at h
  split at h <;> trivial

theorem Pos.op_of_resumes {p q : Pos} (h : p.resumes q = true) : q.op = p.op := by
  unfold Pos.resumes at h
  split at h <;> trivial

section

variable {i : Instr} {s t : State} {p : Pos} {r : Option Byte} {f g : Frame} {rest : List Frame}

/-- A statement makes one of the moves of the stack. -/
theorem Effect.stackMove (h : Effect i s p r (.next t)) (hpc : s.pc = ⟨p, r⟩ :: rest) :
    StackMove s t ⟨p, r⟩ rest := by
  cases h with
  | move q l hq => exact goto_move (by simpa using hpc) q (hq.elim
    (fun h => Pos.op_of_steps h.1) fun h => Pos.op_of_resumes h.2)
  | call c l hr hc => exact call_move (by simpa using hpc) hr c hc
  | tail c hc => exact tail_move hpc c hc
  | ret v => exact ret_move hpc v
  | delay us q hq => exact goto_move (by simpa using hpc) q (Pos.op_of_steps hq)
  | event e q l he => exact goto_move (by simpa using hpc) q (Pos.op_of_steps he.steps)
  | pinFault | zero => exact raise_move _
  | positive _ hp | configure _ hp =>
    subst hp
    exact goto_move (by simpa using hpc) _ rfl
  | store => exact goto_move (by simpa using hpc) p rfl

/-! ### Chains of calls -/

theorem stackWf_cons_cons :
    stackWf (f :: g :: rest) = true ↔ g.returned = none ∧ g.pos.calls f.pos.op = true ∧ stackWf (g :: rest) = true := by
  simp [stackWf, and_assoc]

theorem stackWf_tail (h : stackWf (f :: rest) = true) : stackWf rest = true := by
  cases rest with
  | nil => rfl
  | cons g gs => exact (stackWf_cons_cons.mp h).2.2

/-- The form of a chain looks at the operation of its top frame only. -/
theorem stackWf_replace_top {f' : Frame} (hop : f'.pos.op = f.pos.op) (h : stackWf (f :: rest) = true) :
    stackWf (f' :: rest) = true := by
  cases rest with
  | nil => simpa [stackWf, hop] using h
  | cons g gs => simpa only [stackWf_cons_cons, hop] using h

/-- A tail call of STOP or RECOVER leaves a frame its caller may have called (R101, R120). -/
theorem Pos.calls_stop_eq_calls_recover (p : Pos) : p.calls .stop = p.calls .recover := by
  cases p <;> rename_i l <;> cases l <;> rfl

theorem StackMove.stackWf (h : StackMove s t f rest) (hs : stackWf (f :: rest) = true) : stackWf t.pc = true := by
  cases h with
  | goto p hop h => rw [h]; exact stackWf_replace_top hop hs
  | call c hr hc h =>
    rw [h, stackWf_cons_cons]
    exact ⟨hr, by rw [entryOf_op]; exact hc, hs⟩
  | tail c hc h =>
    have hcalls (g : Frame) : g.pos.calls f.pos.op = g.pos.calls (opOf c) := by
      rcases hc with ⟨hp, rfl⟩ | ⟨hp, rfl⟩ <;> rw [hp]
      · exact g.pos.calls_stop_eq_calls_recover
      · exact g.pos.calls_stop_eq_calls_recover.symm
    rw [h]
    cases rest with
    | nil => rcases hc with ⟨hp, -⟩ | ⟨hp, -⟩ <;> simp [Machine.stackWf, hp, Pos.op, Op.isCommand] at hs
    | cons g gs =>
      rw [stackWf_cons_cons, hcalls] at hs
      rw [stackWf_cons_cons, entryOf_op]
      exact hs
  | ret g rest' v hr h =>
    rw [h]
    subst hr
    exact stackWf_replace_top (f := g) rfl (stackWf_tail hs)
  | ends h => rw [h]; rfl

theorem stackWf_accept {i : Instr} (hi : i.isCommand = true) (s : State) : stackWf (s.accept i).pc = true := by
  rw [State.accept_pc, stackWf, entryOf_op]
  cases i <;> trivial

/-- R27, R73 are kept. -/
theorem step_stackWf (h : stackWf s.pc = true) (hstep : step s = .next t) : stackWf t.pc = true := by
  cases stepEffect_of_step hstep with
  | host => exact h
  | accepted i rs hi => exact stackWf_accept hi _
  | statement i p r rest rs _ hpc _ _ he => exact (he.stackMove hpc).stackWf (hpc ▸ h)

/-! ### Depth (R27) -/

/-- The layer of an operation: line operations, bit operations with recovery, START and bytes, commands. -/
def Op.layer : Op → Nat
  | .pull | .release | .waitClockReleased | .readDataIdle => 0
  | .stop | .recover | .readBit | .writeBit => 1
  | .start | .readByte | .writeByte => 2
  | .new | .write | .read | .writeRead => 3

theorem Op.layer_le_three (o : Op) : o.layer ≤ 3 := by cases o <;> decide

theorem Op.not_isCommand_of_layer {o : Op} (h : o.layer < 3) : o.isCommand = false := by
  cases o <;> trivial

/-- A call goes to a lower layer. -/
theorem Pos.layer_lt_of_calls {o : Op} (h : p.calls o = true) : o.layer < p.op.layer := by
  unfold Pos.calls at h
  split at h <;> trivial

/-- Along a chain the layers rise from the top frame down. -/
theorem layers_rise {fs : List Frame} (h : stackWf fs = true) :
    fs.Pairwise fun f g => f.pos.op.layer < g.pos.op.layer := by
  induction fs with
  | nil => exact .nil
  | cons f rest ih =>
    have hrest := ih (stackWf_tail h)
    refine List.pairwise_cons.mpr ⟨fun a ha => ?_, hrest⟩
    cases rest with
    | nil => exact nomatch ha
    | cons g gs =>
      have hfg := Pos.layer_lt_of_calls (stackWf_cons_cons.mp h).2.1
      rcases List.mem_cons.mp ha with rfl | ha
      · exact hfg
      · exact Nat.lt_trans hfg ((List.pairwise_cons.mp hrest).1 a ha)

/-- Rising layers from `k` on leave room for `4 - k` frames. -/
theorem length_le_of_layers_rise {fs : List Frame} (k : Nat)
    (h : fs.Pairwise fun f g => f.pos.op.layer < g.pos.op.layer) (hk : ∀ f ∈ fs, k ≤ f.pos.op.layer) :
    fs.length ≤ 4 - k := by
  induction fs generalizing k with
  | nil => exact Nat.zero_le _
  | cons f rest ih =>
    obtain ⟨hf, hrest⟩ := List.pairwise_cons.mp h
    have := ih (k + 1) hrest fun g hg => Nat.lt_of_le_of_lt (hk f (by simp)) (hf g hg)
    have := hk f (by simp)
    have := f.pos.op.layer_le_three
    simp only [List.length_cons]
    omega

/-! ### The registers of an operation (R25) -/

/-- The registers of one operation, the others without a value. The transaction commands share theirs. -/
def Locals.own (o : Op) (r : Locals) : Locals :=
  match o with
  | .new => .dead
  | .write | .read | .writeRead => { Locals.dead with idx := r.idx, x := r.x, a := r.a }
  | .start => { Locals.dead with startD := r.startD }
  | .stop => { Locals.dead with stopD := r.stopD }
  | .writeBit => { Locals.dead with writeBitBit := r.writeBitBit }
  | .readBit => { Locals.dead with readBitB := r.readBitB }
  | .writeByte =>
    { Locals.dead with writeByteByte := r.writeByteByte, writeByteI := r.writeByteI, writeByteAck := r.writeByteAck }
  | .readByte =>
    { Locals.dead with readByteSendAck := r.readByteSendAck, readByteV := r.readByteV, readByteI := r.readByteI }
  | .recover =>
    { Locals.dead with recoverBurst := r.recoverBurst, recoverPulse := r.recoverPulse, recoverD := r.recoverD }
  | .pull => { Locals.dead with pullL := r.pullL }
  | .release => { Locals.dead with releaseL := r.releaseL, releaseV := r.releaseV }
  | .waitClockReleased => { Locals.dead with waitV := r.waitV }
  | .readDataIdle => { Locals.dead with idleV := r.idleV }

/-- Two operations have no register in common. -/
def Op.apart (o o' : Op) : Bool := o != o' && !(o.isCommand && o'.isCommand)

theorem Locals.own_drop {o o' : Op} (h : o.apart o' = true) (r : Locals) : (r.drop o).own o' = r.own o' := by
  cases o <;> cases o' <;> cases h <;> rfl

/-- A call writes registers of the operation it calls only. -/
theorem Locals.drop_latch (c : Instr) (r : Locals) : (r.latch c).drop (opOf c) = r.drop (opOf c) := by
  cases c <;> rfl

/-- Registers that agree outside `o` agree on every operation apart from it. -/
theorem Locals.own_eq_of_drop {o o' : Op} (h : o.apart o' = true) {r r' : Locals} (hr : r.drop o = r'.drop o) :
    r.own o' = r'.own o' := by
  rw [← Locals.own_drop h r, hr, Locals.own_drop h r']

/-! ### What a waiting frame relies on -/

/-- The frame at `p` can wait for its call, or go on: its registers hold values and its indices are in range. -/
def State.supports (s : State) (p : Pos) : Prop := s.liveAt p = true ∧ s.lengthsOk p ∧ s.receiving p

theorem State.live_nil (h : s.pc = []) : s.live := by
  refine ⟨by rw [h]; rfl, ?_, ?_, ?_⟩ <;> simp [h]

/-- Liveness, frame by frame: below the top no frame has been handed a value yet. -/
theorem State.live_cons (h : s.pc = f :: rest) :
    s.live ↔ stackWf (f :: rest) = true ∧ s.liveAt f.pos = true ∧ s.lengthsOk f.pos ∧
      (f.returned ≠ none → s.receiving f.pos) ∧ ∀ g ∈ rest, s.supports g.pos := by
  simp only [State.live, State.supports, h, List.forall_mem_cons, List.tail_cons]
  constructor
  · rintro ⟨hwf, ⟨⟨hl, hlen⟩, hrest⟩, hrecv, hret, -⟩
    exact ⟨hwf, hl, hlen, hret, fun g hg => ⟨(hrest g hg).1, (hrest g hg).2, hrecv g hg⟩⟩
  · rintro ⟨hwf, hl, hlen, hret, hrest⟩
    exact ⟨hwf, ⟨⟨hl, hlen⟩, fun g hg => ⟨(hrest g hg).1, (hrest g hg).2.1⟩⟩, fun g hg => (hrest g hg).2.2,
      hret, fun g hg _ => (hrest g hg).2.2⟩

/-- The latched operands of two states agree (R26). -/
def sameOperands (s t : State) : Prop := t.adr = s.adr ∧ t.wl = s.wl ∧ t.rl = s.rl

/-- A frame relies on its own registers and the latched operands only. -/
theorem State.supports_of_own (ho : sameOperands s t) (hown : t.locals.own p.op = s.locals.own p.op)
    (h : s.supports p) : t.supports p := by
  obtain ⟨hadr, hwl, hrl⟩ := ho
  cases p <;> simp only [Pos.op, Locals.own, Locals.mk.injEq, true_and, and_true] at hown <;>
    simpa only [State.supports, State.liveAt, State.lengthsOk, State.receiving, hadr, hwl, hrl, hown] using h

theorem State.supports_of_drop {o : Op} (ho : sameOperands s t) (hl : t.locals.drop o = s.locals.drop o)
    (ha : o.apart p.op = true) (h : s.supports p) : t.supports p :=
  State.supports_of_own ho (Locals.own_eq_of_drop ha hl) h

/-- The lengths a position relies on are those of its operation. -/
theorem State.lengthsOk_of_op {q : Pos} (hop : q.op = p.op) (h : s.lengthsOk p) : s.lengthsOk q := by
  cases p <;> cases q <;> simp only [Pos.op, reduceCtorEq] at hop <;> exact h

/-- Along a chain the frames below have no register of the top frame's operation. -/
theorem apart_of_stackWf (h : stackWf (f :: rest) = true) (hg : g ∈ rest) : f.pos.op.apart g.pos.op = true := by
  have hlt := (List.pairwise_cons.mp (layers_rise h)).1 g hg
  have hne : f.pos.op ≠ g.pos.op := fun he => by simp [he] at hlt
  have hcmd := Op.not_isCommand_of_layer (Nat.lt_of_lt_of_le hlt g.pos.op.layer_le_three)
  simp [Op.apart, hne, hcmd]

/-- The frames below the top go on waiting whatever the top frame's operation writes of its own. -/
theorem State.supports_rest (hwf : stackWf (f :: rest) = true) (ho : sameOperands s t)
    (hl : t.locals.drop f.pos.op = s.locals.drop f.pos.op) (h : ∀ g ∈ rest, s.supports g.pos) :
    ∀ g ∈ rest, t.supports g.pos :=
  fun g hg => State.supports_of_drop ho hl (apart_of_stackWf hwf hg) (h g hg)

/-- A call leaves its callee's first label with the registers it needs. -/
theorem liveAt_entry {c : Instr} (hc : p.calls (opOf c) = true) (s : State) :
    (s.call c).liveAt (entryOf c) = true ∧ (s.call c).lengthsOk (entryOf c) := by
  have hcmd := Op.not_isCommand_of_layer (Nat.lt_of_lt_of_le (Pos.layer_lt_of_calls hc) p.op.layer_le_three)
  cases c with
  | new | write | read | writeRead => exact nomatch hcmd
  | start | stop | writeBit | readBit | writeByte | readByte | recover | pull | release | waitClockReleased
  | readDataIdle => exact ⟨rfl, trivial⟩

theorem State.liveAt_of_locals (ho : sameOperands s t) (q : Pos) : t.liveAt q = (s.setLocals t.locals).liveAt q := by
  obtain ⟨hadr, hwl, hrl⟩ := ho
  simp only [State.liveAt, hadr, hwl, hrl, State.setLocals_adr, State.setLocals_wl, State.setLocals_rl,
    State.setLocals_locals]

/-- The operation of the top frame went to another of its labels, writing its own registers. -/
theorem live_of_goto {q : Pos} (hpc : s.pc = ⟨p, r⟩ :: rest) (hs : s.live) (ht : t.pc = ⟨q, none⟩ :: rest)
    (hop : q.op = p.op) (ho : sameOperands s t) (hl : t.locals.drop p.op = s.locals.drop p.op)
    (hlive : s.liveAt p = true → (s.setLocals t.locals).liveAt q = true) : t.live := by
  obtain ⟨hwf, hlv, hlen, -, hrest⟩ := (State.live_cons hpc).mp hs
  rw [State.live_cons ht]
  refine ⟨stackWf_replace_top hop hwf, (State.liveAt_of_locals ho q).trans (hlive hlv), ?_,
    fun h => absurd rfl h, State.supports_rest hwf ho hl hrest⟩
  obtain ⟨-, hwl, hrl⟩ := ho
  have := State.lengthsOk_of_op (s := s) hop hlen
  unfold State.lengthsOk at this ⊢
  rwa [hwl, hrl]

theorem Effect.live (h : Effect i s p r (.next t)) (hpc : s.pc = ⟨p, r⟩ :: rest) (hs : s.live) : t.live := by
  have hwf' := (h.stackMove hpc).stackWf (((State.live_cons hpc).mp hs).1)
  obtain ⟨hwf, hlv, hlen, hret, hrest⟩ := (State.live_cons hpc).mp hs
  cases h with
  | move q l hq hl hlive =>
    exact live_of_goto hpc hs (by simp [hpc]) (hq.elim (fun h => Pos.op_of_steps h.1) fun h => Pos.op_of_resumes h.2)
      (by simp [sameOperands]) hl hlive
  | delay us q hq _ hlive =>
    exact live_of_goto hpc hs (by simp [hpc]) (Pos.op_of_steps hq) (by simp [sameOperands]) rfl hlive
  | event e q l he _ hl _ hlive =>
    exact live_of_goto hpc hs (by simp [hpc]) (Pos.op_of_steps he.steps) (by simp [sameOperands]) hl hlive
  | positive _ hp =>
    subst hp
    exact live_of_goto (q := .new .n1) hpc hs (by simp [hpc]) rfl (by simp [sameOperands]) rfl fun _ => rfl
  | configure _ hp =>
    subst hp
    exact live_of_goto (q := .new .n4) hpc hs (by simp [hpc]) rfl (by simp [sameOperands]) rfl fun _ => rfl
  | store j v hi =>
    refine live_of_goto hpc hs (by simp [hpc]) rfl (by simp [sameOperands]) ?_ fun h => ?_ <;>
      rcases hi with ⟨_, -, rfl⟩ | ⟨_, -, rfl⟩
    · rfl
    · rfl
    · simp only [State.liveAt, Bool.and_eq_true] at h ⊢
      exact ⟨h.1, rfl⟩
    · simp only [State.liveAt, Bool.and_eq_true] at h ⊢
      exact ⟨h.1, rfl⟩
  | call c l hr hc hline hl hlive hrecv =>
    have ht : ((s.setLocals l).call c).pc = ⟨entryOf c, none⟩ :: ⟨p, r⟩ :: rest := by simp [hpc]
    rw [ht] at hwf'
    rw [State.live_cons ht]
    obtain ⟨hlv', hlen'⟩ := liveAt_entry hc (s.setLocals l)
    refine ⟨hwf', hlv', hlen', fun h => absurd rfl h, ?_⟩
    refine State.supports_rest (s := s.setLocals l) hwf' ⟨rfl, rfl, rfl⟩ ?_ ?_
    · rw [entryOf_op]
      exact Locals.drop_latch c l
    · refine List.forall_mem_cons.mpr ⟨⟨hlive hlv, hlen, hrecv⟩, ?_⟩
      exact State.supports_rest (s := s) hwf ⟨rfl, rfl, rfl⟩ hl hrest
  | tail c hc =>
    have ht : (s.tailcall c).pc = ⟨entryOf c, none⟩ :: rest := by rw [State.tailcall_top hpc]
    rw [ht] at hwf'
    rw [State.live_cons ht]
    have ho : sameOperands s (s.tailcall c) := by rw [State.tailcall_top hpc]; exact ⟨rfl, rfl, rfl⟩
    have hdrop : (s.tailcall c).locals.drop p.op = s.locals.drop p.op := by
      rw [State.tailcall_top hpc]
      rcases hc with ⟨rfl, rfl⟩ | ⟨rfl, rfl⟩ <;> rfl
    have hentry : (s.tailcall c).liveAt (entryOf c) = true ∧ (s.tailcall c).lengthsOk (entryOf c) := by
      rcases hc with ⟨-, rfl⟩ | ⟨-, rfl⟩ <;> exact ⟨rfl, trivial⟩
    exact ⟨hwf', hentry.1, hentry.2, fun h => absurd rfl h, State.supports_rest hwf ho hdrop hrest⟩
  | ret v =>
    cases rest with
    | nil => exact State.live_nil (by rw [State.ret_bottom hpc]; rfl)
    | cons g gs =>
      have hdrop : (s.ret v).locals = s.locals.drop p.op := by rw [State.ret_caller hpc]
      have ho : sameOperands s (s.ret v) := by rw [State.ret_caller hpc]; exact ⟨rfl, rfl, rfl⟩
      have hrest' : ∀ f ∈ g :: gs, (s.ret v).supports f.pos :=
        State.supports_rest hwf ho (by rw [hdrop]; cases p.op <;> rfl) hrest
      obtain ⟨⟨hlv', hlen', hrecv'⟩, hgs⟩ := List.forall_mem_cons.mp hrest'
      have ht : (s.ret v).pc = { g with returned := some v } :: gs := by rw [State.ret_caller hpc]
      rw [State.live_cons ht]
      exact ⟨ht ▸ hwf', hlv', hlen', fun _ => hrecv', hgs⟩
  | pinFault | zero => exact State.live_nil rfl

/-- From a live state a statement stops the model nowhere. -/
theorem Effect.no_fault {x : Fault} (h : Effect i s p r (.fault x)) (hpc : s.pc = ⟨p, r⟩ :: rest) (hs : s.live) :
    False := by
  obtain ⟨-, hlv, hlen, hret, -⟩ := (State.live_cons hpc).mp hs
  cases h with
  | fault _ h => exact h hlv hlen hret

theorem Effect.no_refusal {x : Refusal} : ¬Effect i s p r (.refused x) := nofun

/-- Acceptance checks the lengths a command uses and latches its operands (R26, R164). -/
theorem live_accept (hi : i.isCommand = true) (h : s.refusal i = none) : (s.accept i).live := by
  have hlen : s.lengthExceeded i = false ∨ i = .new := by
    by_cases hnew : i = .new
    · exact .inr hnew
    · have hb := State.not_busy_of_refusal_none h
      cases hc : s.configured with
      | false => simp [State.refusal_unconfigured hb hnew hc] at h
      | true =>
        rw [State.refusal_configured hb hnew hc] at h
        exact .inl (by simpa using h)
  rw [State.live_cons (State.accept_pc i s)]
  refine ⟨by rw [← State.accept_pc i s]; exact stackWf_accept hi s, ?_, ?_, fun h => absurd rfl h, nofun⟩
  · cases i <;> trivial
  · rcases i.isCommand_iff.mp hi with rfl | ⟨adr, rfl⟩ | ⟨adr, rfl⟩ | ⟨adr, rfl⟩ <;>
      simp [State.lengthExceeded, usesLengths] at hlen
    · trivial
    · rintro n ⟨⟩
      exact hlen
    · rintro n ⟨⟩
      exact hlen
    · constructor <;> rintro n ⟨⟩
      exacts [hlen.1, hlen.2]

end

end Sys2Proof.Machine

open Sys2Proof Sys2Proof.Machine

/-- Settles O48: every move of the stack keeps the chain. -/
theorem stackStaysACallChain : Obligations.StackStaysACallChain := fun _ _ => step_stackWf

/-- Settles O49: along a chain the layers rise, and there are four. -/
theorem stackDepthAndNoRepeat : Obligations.StackDepthAndNoRepeat := by
  intro fs h
  have hrise := layers_rise h
  refine ⟨length_le_of_layers_rise 0 hrise fun _ _ => Nat.zero_le _, ?_⟩
  rw [List.Nodup, List.pairwise_map]
  exact hrise.imp fun hlt he => absurd hlt (by rw [he]; exact Nat.lt_irrefl _)

/-- Settles O50: a statement faults only where liveness fails, and keeps it: it writes its own operation's registers, and
along a chain no other frame relies on those. -/
theorem noStepFaults : Obligations.NoStepFaults := by
  intro s hs
  refine ⟨fun f hf => ?_, fun r hr => ?_, fun t ht => ?_⟩
  · have h := hf ▸ step_effect s
    cases h with
    | unlatched p r rest hpc h =>
      obtain ⟨-, hlv, -⟩ := (State.live_cons hpc).mp hs
      exact absurd (hlv.symm.trans h) nofun
    | statement i p r rest rs _ hpc _ _ he => exact he.no_fault hpc hs
  · have h := hr ▸ step_effect s
    cases h with
    | reset hdue => exact ⟨rfl, hdue⟩
    | statement i p r rest rs _ hpc _ _ he => exact absurd he Effect.no_refusal
  · cases stepEffect_of_step ht with
    | host => exact hs
    | accepted i rs hi h => exact live_accept hi h
    | statement i p r rest rs _ hpc _ _ he => exact he.live hpc hs

/-- Settles O54: the stack is empty and every register dead, so each invariant holds at once. -/
theorem resetMeetsTheInvariants : Obligations.ResetMeetsTheInvariants := by
  have hrest : State.reset.resting := ⟨rfl, by decide, rfl, rfl, rfl, rfl⟩
  refine ⟨by unfold State.reservedInv; decide, hrest.busyInv, ⟨hrest.busyInv, ?_, nofun⟩, State.reset_buffers_wf,
    State.live_nil rfl, hrest.idleInv, trivial, rfl, trivial⟩
  exact fun h => absurd h (by decide)
end


section
/-! SUPPORT. Registers that steer nothing (R24, R134): two states that differ only in the line shadow state, or only in the
acknowledge bit, take steps that differ only there; and the settlement of O57 and O59. -/

namespace Sys2Proof.Machine

/-- The registers with the acknowledge bit a command holds seen through `α`. -/
def Locals.blur (α : Option Bit → Option Bit) (r : Locals) : Locals := { r with a := α r.a }

/-- The state with drv seen through `δ` and the acknowledge bit through `α`. -/
def State.blur (δ : Drv → Drv) (α : Option Bit → Option Bit) (s : State) : State :=
  { s with drvScl := δ s.drvScl, drvSda := δ s.drvSda, locals := s.locals.blur α }

theorem State.eraseDrv_eq_blur : State.eraseDrv = State.blur (fun _ => .unclaimed) id := rfl

theorem State.eraseAck_eq_blur : State.eraseAck = State.blur id (fun _ => none) := rfl

section

variable {δ : Drv → Drv} {α : Option Bit → Option Bit} {s t : State}

/-! ### The shared operations do not look through the blur -/

theorem Locals.blur_latch (c : Instr) (r : Locals) : (r.latch c).blur α = (r.blur α).latch c := by cases c <;> rfl

theorem State.blur_goto (p : Pos) (s : State) : (s.goto p).blur δ α = (s.blur δ α).goto p := rfl

theorem State.blur_setLocals (r : Locals) (s : State) :
    (s.setLocals r).blur δ α = (s.blur δ α).setLocals (r.blur α) := rfl

theorem State.blur_call (c : Instr) (s : State) : (s.call c).blur δ α = (s.blur δ α).call c := by
  cases c <;> rfl

theorem State.blur_setDrv (L : Line) (d : Drv) (s : State) :
    (s.setDrv L d).blur δ α = (s.blur δ α).setDrv L (δ d) := by cases L <;> rfl

theorem State.blur_record (e : Event) (s : State) : (s.record e).blur δ α = (s.blur δ α).record e := rfl

theorem State.blur_dropAnswer (s : State) : s.dropAnswer.blur δ α = (s.blur δ α).dropAnswer := rfl

theorem State.blur_issue (i : Instr) (s : State) : (s.issue i).blur δ α = (s.blur δ α).issue i := by
  have href : (s.blur δ α).refusal i = s.refusal i := rfl
  unfold State.issue
  rw [href]
  split
  · rfl
  · unfold State.accept
    dsimp only
    split <;> rfl

section

/-! A dead register stays dead through the blur. -/

variable (hα : α none = none)

include hα

theorem Locals.blur_dead : Locals.dead.blur α = Locals.dead := by
  simp [Locals.blur, Locals.dead, hα]

theorem Locals.blur_drop (o : Op) (r : Locals) : (r.drop o).blur α = (r.blur α).drop o := by
  cases o <;> simp [Locals.blur, Locals.drop, hα]

theorem State.blur_raise (c : Cause) (s : State) : (s.raise c).blur δ α = (s.blur δ α).raise c := by
  simp only [State.raise, State.toIdle, State.blur, Locals.blur_dead hα]
  rfl

theorem State.blur_endCommand (s : State) : s.endCommand.blur δ α = (s.blur δ α).endCommand := by
  simp only [State.endCommand, State.toIdle, State.blur, Locals.blur_dead hα]
  rfl

theorem State.blur_ret (v : Byte) (s : State) : (s.ret v).blur δ α = (s.blur δ α).ret v := by
  match hpc : s.pc with
  | [] => rw [State.ret, hpc, State.ret, show (s.blur δ α).pc = [] from hpc]
  | [f] => rw [State.ret_bottom hpc, State.ret_bottom (s := s.blur δ α) hpc, State.blur_endCommand hα]
  | f :: g :: rest =>
    rw [State.ret_caller hpc, State.ret_caller (s := s.blur δ α) hpc, State.blur, Locals.blur_drop hα]
    rfl

theorem State.blur_tailcall (c : Instr) (s : State) : (s.tailcall c).blur δ α = (s.blur δ α).tailcall c := by
  match hpc : s.pc with
  | [] => rw [State.tailcall, hpc, State.tailcall, show (s.blur δ α).pc = [] from hpc, State.blur_call]
  | f :: rest =>
    rw [State.tailcall_top hpc, State.tailcall_top (s := s.blur δ α) hpc, State.blur, Locals.blur_latch,
      Locals.blur_drop hα]
    rfl

end

/-! ### Outcomes that differ only in what is blurred -/

variable (δ α) in
/-- The two outcomes are the same but for what is blurred. -/
def Alike (o o' : Out) : Prop := mapNext (State.blur δ α) o = mapNext (State.blur δ α) o'

theorem Alike.next (h : s.blur δ α = t.blur δ α) : Alike δ α (.next s) (.next t) := congrArg Host.Outcome.next h

theorem alike_fault (f : Fault) : Alike δ α (.fault f) (.fault f) := rfl

theorem alike_need {β : Type} {v v' : Option β} {k k' : β → Out} (hv : v = v') (hk : ∀ a, Alike δ α (k a) (k' a)) :
    Alike δ α (need v k) (need v' k') := by
  subst hv
  cases v with
  | none => rfl
  | some a => exact hk a

section

variable (h : s.blur δ α = t.blur δ α)

include h

/-- What does not look at the blurred registers is the same in both states. -/
theorem same_of_blur {β : Type} (get : State → β) (hget : ∀ u : State, get (u.blur δ α) = get u) : get s = get t :=
  (hget s).symm.trans ((congrArg get h).trans (hget t))

/-- A change of the state that commutes with the blur. -/
theorem alike_map {F : State → State} (hF : ∀ u : State, (F u).blur δ α = F (u.blur δ α)) :
    Alike δ α (.next (F s)) (.next (F t)) :=
  .next ((hF s).trans ((congrArg F h).trans (hF t).symm))

theorem pc_of_blur : s.pc = t.pc := (congrArg State.pc h :)

theorem locals_of_blur : s.locals.blur α = t.locals.blur α := (congrArg State.locals h :)

theorem nextAnswer_of_blur : s.nextAnswer = t.nextAnswer := (congrArg State.nextAnswer h :)

theorem alike_goto (q : Pos) : Alike δ α (.next (s.goto q)) (.next (t.goto q)) := alike_map h (State.blur_goto q)

/-- Registers written from registers that are not blurred. -/
theorem alike_setLocals_goto {r r' : Locals} (q : Pos) (hr : r.blur α = r'.blur α) :
    Alike δ α (.next ((s.setLocals r).goto q)) (.next ((t.setLocals r').goto q)) := by
  refine .next ?_
  rw [State.blur_goto, State.blur_goto, State.blur_setLocals, State.blur_setLocals, h, hr]

theorem alike_delay_goto (us : Nat) (q : Pos) :
    Alike δ α (.next ((s.delay us).goto q)) (.next ((t.delay us).goto q)) :=
  alike_map h (F := fun u => (u.delay us).goto q) fun _ => rfl

theorem alike_delayHalf_goto (q : Pos) : Alike δ α (.next (s.delayHalf.goto q)) (.next (t.delayHalf.goto q)) :=
  alike_map h (F := fun u => u.delayHalf.goto q) fun _ => rfl

theorem alike_call (c : Instr) : Alike δ α (.next (s.call c)) (.next (t.call c)) :=
  alike_map h (State.blur_call c)

theorem alike_issue (i : Instr) : Alike δ α (.next (s.issue i)) (.next (t.issue i)) :=
  alike_map h (State.blur_issue i)

theorem alike_callStmt {r : Option Byte} {c : Instr} {k : Byte → State → Out}
    (hk : ∀ v, Alike δ α (k v s) (k v t)) : Alike δ α (s.callStmt r c k) (t.callStmt r c k) := by
  cases r with
  | none => exact alike_call h c
  | some v => exact hk v

theorem alike_callStmt_goto {r : Option Byte} {c : Instr} (q : Pos) :
    Alike δ α (s.callStmt r c fun _ u => .next (u.goto q)) (t.callStmt r c fun _ u => .next (u.goto q)) :=
  alike_callStmt h fun _ => alike_goto h q

/-- Registers written without looking through the blur. -/
theorem alike_put_goto (put : Locals → Locals) (q : Pos) (hput : ∀ l : Locals, (put l).blur α = put (l.blur α)) :
    Alike δ α (.next ((s.setLocals (put s.locals)).goto q)) (.next ((t.setLocals (put t.locals)).goto q)) :=
  alike_setLocals_goto h q ((hput _).trans ((congrArg put (locals_of_blur h)).trans (hput _).symm))

theorem alike_callStmt_put {r : Option Byte} {c : Instr} (put : Byte → Locals → Locals) (q : Pos)
    (hput : ∀ v, ∀ l : Locals, (put v l).blur α = put v (l.blur α)) :
    Alike δ α (s.callStmt r c fun v u => .next ((u.setLocals (put v u.locals)).goto q))
      (t.callStmt r c fun v u => .next ((u.setLocals (put v u.locals)).goto q)) :=
  alike_callStmt h fun v => alike_put_goto h (put v) q (hput v)

/-! #### Returns and the pin primitives -/

variable (hα : α none = none)

include hα

theorem alike_raise (c : Cause) : Alike δ α (.next (s.raise c)) (.next (t.raise c)) :=
  alike_map h (State.blur_raise hα c)

theorem alike_ret (v : Byte) : Alike δ α (.next (s.ret v)) (.next (t.ret v)) := alike_map h (State.blur_ret hα v)

theorem alike_tailcall (c : Instr) : Alike δ α (.next (s.tailcall c)) (.next (t.tailcall c)) :=
  alike_map h (State.blur_tailcall hα c)

theorem alike_pinExport (L : Line) (q : Pos) :
    Alike δ α (.next (s.pinExport L (State.goto q))) (.next (t.pinExport L (State.goto q))) := by
  have hn := nextAnswer_of_blur h
  refine .next ?_
  rcases s.nextAnswer_cases with ⟨v, hv⟩ | ⟨k, hk⟩
  · simp only [State.pinExport_ok hv, State.pinExport_ok (hn.symm.trans hv), State.blur_goto, State.blur_setDrv,
      State.blur_record, State.blur_dropAnswer, h]
  · simp only [State.pinExport_err hk, State.pinExport_err (hn.symm.trans hk), State.blur_raise hα,
      State.blur_record, State.blur_dropAnswer, h]

theorem alike_pinSetDir (L : Line) (d : Dir) (q : Pos) :
    Alike δ α (.next (s.pinSetDir L d (State.goto q))) (.next (t.pinSetDir L d (State.goto q))) := by
  have hn := nextAnswer_of_blur h
  refine .next ?_
  rcases s.nextAnswer_cases with ⟨v, hv⟩ | ⟨k, hk⟩
  · simp only [State.pinSetDir_ok hv, State.pinSetDir_ok (hn.symm.trans hv), State.blur_goto, State.blur_setDrv,
      State.blur_record, State.blur_dropAnswer, h]
  · simp only [State.pinSetDir_err hk, State.pinSetDir_err (hn.symm.trans hk), State.blur_raise hα,
      State.blur_setDrv, State.blur_record, State.blur_dropAnswer, h]

theorem alike_pinSetVal (L : Line) (q : Pos) :
    Alike δ α (.next (s.pinSetVal L (State.goto q))) (.next (t.pinSetVal L (State.goto q))) := by
  have hn := nextAnswer_of_blur h
  refine .next ?_
  rcases s.nextAnswer_cases with ⟨v, hv⟩ | ⟨k, hk⟩
  · simp only [State.pinSetVal_ok hv, State.pinSetVal_ok (hn.symm.trans hv), State.blur_goto, State.blur_setDrv,
      State.blur_record, State.blur_dropAnswer, h]
  · simp only [State.pinSetVal_err hk, State.pinSetVal_err (hn.symm.trans hk), State.blur_raise hα,
      State.blur_setDrv, State.blur_record, State.blur_dropAnswer, h]

theorem alike_pinGetVal (L : Line) (put : Bit → Locals → Locals) (q : Pos)
    (hput : ∀ v, ∀ l : Locals, (put v l).blur α = put v (l.blur α)) :
    Alike δ α (.next (s.pinGetVal L fun v u => (u.setLocals (put v u.locals)).goto q))
      (.next (t.pinGetVal L fun v u => (u.setLocals (put v u.locals)).goto q)) := by
  have hn := nextAnswer_of_blur h
  rcases s.nextAnswer_cases with ⟨v, hv⟩ | ⟨k, hk⟩
  · rw [State.pinGetVal_ok hv, State.pinGetVal_ok (hn.symm.trans hv)]
    refine alike_put_goto ?_ (put v) q (hput v)
    rw [State.blur_record, State.blur_record, State.blur_dropAnswer, State.blur_dropAnswer, h]
  · refine .next ?_
    simp only [State.pinGetVal_err hk, State.pinGetVal_err (hn.symm.trans hk), State.blur_raise hα,
      State.blur_record, State.blur_dropAnswer, h]

/-! ### Each operation's statements -/

variable {r : Option Byte} {rest : List Frame}

theorem execNew_alike {l : NewLabel} (hpc : s.pc = ⟨.new l, r⟩ :: rest) : Alike δ α (execNew s) (execNew t) := by
  simp only [execNew, hpc, (pc_of_blur h).symm.trans hpc]
  cases l with
  | n0 =>
    have hf := same_of_blur h State.freq fun _ => rfl
    dsimp only
    rw [hf]
    split
    · exact alike_raise h hα _
    · exact alike_goto h _
  | n1 | n2 => exact alike_pinExport h hα _ _
  | n3 =>
    exact alike_map h (F := fun u => { u.setConfigured true with halfUs := halfPeriod u.freq }.goto (.new .n4))
      fun _ => rfl
  | n4 => exact alike_ret h hα _

omit hα in
theorem sendAddress_alike (adr : Addr) (rw : Bit) (q : Pos) :
    Alike δ α (s.sendAddress r adr rw q) (t.sendAddress r adr rw q) :=
  alike_callStmt h fun v => alike_setLocals_goto h q
    (congrArg (fun l : Locals => { l with a := α (some (asBit v)), idx := some 0 }) (locals_of_blur h))

omit hα in
theorem sendLoop_alike (p q : Pos) : Alike δ α (s.sendLoop r p q) (t.sendLoop r p q) := by
  refine alike_need (same_of_blur h (fun u => u.locals.idx) fun _ => rfl) fun j => ?_
  cases r with
  | none =>
    refine alike_need (same_of_blur h State.wl fun _ => rfl) fun n => ?_
    have hw := same_of_blur h State.wbuf fun _ => rfl
    rw [hw]
    split
    · split
      · refine alike_call ?_ _
        exact congrArg (fun u : State => u.setLocals { u.locals with x := some (Memory.read .wbuf t.wbuf j) }) h
      · exact alike_fault _
    · exact alike_goto h q
  | some v =>
    exact alike_setLocals_goto h p
      (congrArg (fun l : Locals => { l with a := α (some (asBit v)), idx := some (j + 1) }) (locals_of_blur h))

omit hα in
theorem receiveLoop_alike (p q : Pos) : Alike δ α (s.receiveLoop r p q) (t.receiveLoop r p q) := by
  refine alike_need (same_of_blur h (fun u => u.locals.idx) fun _ => rfl) fun j => ?_
  cases r with
  | none =>
    refine alike_need (same_of_blur h State.rl fun _ => rfl) fun n => ?_
    split
    · exact alike_call h _
    · exact alike_goto h q
  | some v =>
    dsimp only
    split
    · exact alike_map h (F := fun u => ({ u with rbuf := Memory.write .rbuf u.rbuf j v }.setLocals
        { u.locals with x := some v, idx := some (j + 1) }).goto p) fun _ => rfl
    · exact alike_fault _

theorem execWrite_alike {adr : Addr} {l : TransferLabel} (hpc : s.pc = ⟨.write l, r⟩ :: rest) :
    Alike δ α (execWrite adr s) (execWrite adr t) := by
  simp only [execWrite, hpc, (pc_of_blur h).symm.trans hpc]
  cases l with
  | a0 | a3 => exact alike_callStmt_goto h _
  | a1 => exact sendAddress_alike h _ _ _
  | a2 => exact sendLoop_alike h _ _
  | a4 => exact alike_ret h hα _

theorem execRead_alike {adr : Addr} {l : TransferLabel} (hpc : s.pc = ⟨.read l, r⟩ :: rest) :
    Alike δ α (execRead adr s) (execRead adr t) := by
  simp only [execRead, hpc, (pc_of_blur h).symm.trans hpc]
  cases l with
  | a0 | a3 => exact alike_callStmt_goto h _
  | a1 => exact sendAddress_alike h _ _ _
  | a2 => exact receiveLoop_alike h _ _
  | a4 => exact alike_ret h hα _

theorem execWriteRead_alike {adr : Addr} {l : CombinedLabel} (hpc : s.pc = ⟨.writeRead l, r⟩ :: rest) :
    Alike δ α (execWriteRead adr s) (execWriteRead adr t) := by
  simp only [execWriteRead, hpc, (pc_of_blur h).symm.trans hpc]
  cases l with
  | a0 | a3 | a6 => exact alike_callStmt_goto h _
  | a1 | a4 => exact sendAddress_alike h _ _ _
  | a2 => exact sendLoop_alike h _ _
  | a5 => exact receiveLoop_alike h _ _
  | a7 => exact alike_ret h hα _

theorem execStart_alike {l : StartLabel} (hpc : s.pc = ⟨.start l, r⟩ :: rest) :
    Alike δ α (execStart s) (execStart t) := by
  simp only [execStart, hpc, (pc_of_blur h).symm.trans hpc]
  cases l with
  | s0 => exact alike_callStmt_put h (fun v l => { l with startD := some (asBit v) }) _ fun _ _ => rfl
  | s1 =>
    refine alike_need (same_of_blur h (fun u => u.locals.startD) fun _ => rfl) fun d => ?_
    split
    · exact alike_callStmt_goto h _
    · exact alike_goto h _
  | s2 | s3 | s4 => exact alike_callStmt_goto h _
  | s5 => exact alike_ret h hα _

theorem execStop_alike {l : StopLabel} (hpc : s.pc = ⟨.stop l, r⟩ :: rest) :
    Alike δ α (execStop s) (execStop t) := by
  simp only [execStop, hpc, (pc_of_blur h).symm.trans hpc]
  cases l with
  | e0 => exact alike_callStmt_goto h _
  | e1 => exact alike_callStmt_put h (fun v l => { l with stopD := some (asBit v) }) _ fun _ _ => rfl
  | e2 =>
    refine alike_need (same_of_blur h (fun u => u.locals.stopD) fun _ => rfl) fun d => ?_
    split
    · exact alike_tailcall h hα _
    · exact alike_goto h _
  | e3 => exact alike_ret h hα _

theorem execReadBit_alike {l : ReadBitLabel} (hpc : s.pc = ⟨.readBit l, r⟩ :: rest) :
    Alike δ α (execReadBit s) (execReadBit t) := by
  simp only [execReadBit, hpc, (pc_of_blur h).symm.trans hpc, Config.sampleViaLineController, if_true]
  cases l with
  | b0 | b1 | b3 | b4 => exact alike_callStmt_goto h _
  | b2 => exact alike_callStmt_put h (fun v l => { l with readBitB := some (asBit v) }) _ fun _ _ => rfl
  | b5 => exact alike_need (same_of_blur h (fun u => u.locals.readBitB) fun _ => rfl) fun _ => alike_ret h hα _

theorem execWriteBit_alike {bit : Bit} {l : WriteBitLabel} (hpc : s.pc = ⟨.writeBit l, r⟩ :: rest) :
    Alike δ α (execWriteBit bit s) (execWriteBit bit t) := by
  simp only [execWriteBit, hpc, (pc_of_blur h).symm.trans hpc]
  cases l with
  | c0 | c1 | c2 | c3 => exact alike_callStmt_goto h _
  | c4 => exact alike_ret h hα _

theorem execWriteByte_alike {byte : Byte} {l : WriteByteLabel} (hpc : s.pc = ⟨.writeByte l, r⟩ :: rest) :
    Alike δ α (execWriteByte byte s) (execWriteByte byte t) := by
  simp only [execWriteByte, hpc, (pc_of_blur h).symm.trans hpc]
  cases l with
  | x0 =>
    refine alike_need (same_of_blur h (fun u => u.locals.writeByteI) fun _ => rfl) fun n => ?_
    refine alike_callStmt h fun v => ?_
    split
    · exact alike_goto h _
    · exact alike_put_goto h (fun l : Locals => { l with writeByteI := some (n - 1) }) _ fun _ => rfl
  | x1 => exact alike_callStmt_put h (fun v l => { l with writeByteAck := some (asBit v) }) _ fun _ _ => rfl
  | x2 => exact alike_need (same_of_blur h (fun u => u.locals.writeByteAck) fun _ => rfl) fun _ => alike_ret h hα _

theorem execReadByte_alike {sa : Bit} {l : ReadByteLabel} (hpc : s.pc = ⟨.readByte l, r⟩ :: rest) :
    Alike δ α (execReadByte sa s) (execReadByte sa t) := by
  simp only [execReadByte, hpc, (pc_of_blur h).symm.trans hpc]
  cases l with
  | y0 => exact alike_put_goto h (fun l : Locals => { l with readByteV := some 0, readByteI := some 7 }) _ fun _ => rfl
  | y1 =>
    refine alike_callStmt h fun b => ?_
    refine alike_need (same_of_blur h (fun u => u.locals.readByteV) fun _ => rfl) fun v => ?_
    refine alike_need (same_of_blur h (fun u => u.locals.readByteI) fun _ => rfl) fun n => ?_
    split
    · exact alike_put_goto h (fun l : Locals => { l with readByteV := some (shiftIn v (asBit b)) }) _ fun _ => rfl
    · exact alike_put_goto h
        (fun l : Locals => { l with readByteV := some (shiftIn v (asBit b)), readByteI := some (n - 1) }) _ fun _ => rfl
  | y2 => exact alike_callStmt_goto h _
  | y3 => exact alike_need (same_of_blur h (fun u => u.locals.readByteV) fun _ => rfl) fun _ => alike_ret h hα _

theorem execRecover_alike {l : RecoverLabel} (hpc : s.pc = ⟨.recover l, r⟩ :: rest) :
    Alike δ α (execRecover s) (execRecover t) := by
  simp only [execRecover, hpc, (pc_of_blur h).symm.trans hpc]
  cases l with
  | v0 | v3 | v4 | v9 | v10 => exact alike_callStmt_goto h _
  | v1 => exact alike_put_goto h (fun l : Locals => { l with recoverBurst := some 0 }) _ fun _ => rfl
  | v2 => exact alike_put_goto h (fun l : Locals => { l with recoverPulse := some 0 }) _ fun _ => rfl
  | v5 =>
    refine alike_need (same_of_blur h (fun u => u.locals.recoverPulse) fun _ => rfl) fun n => ?_
    exact alike_put_goto h (fun l : Locals => { l with recoverPulse := some (n + 1) }) _ fun _ => rfl
  | v6 => exact alike_delay_goto h _ _
  | v7 => exact alike_callStmt_put h (fun v l => { l with recoverD := some (asBit v) }) _ fun _ _ => rfl
  | v8 =>
    refine alike_need (same_of_blur h (fun u => u.locals.recoverBurst) fun _ => rfl) fun n => ?_
    refine alike_need (same_of_blur h (fun u => u.locals.recoverD) fun _ => rfl) fun d => ?_
    exact alike_put_goto h (fun l : Locals => { l with recoverBurst := some (n + 1) }) _ fun _ => rfl
  | v11 => exact alike_tailcall h hα _

theorem execPull_alike {L : Line} {l : PullLabel} (hpc : s.pc = ⟨.pull l, r⟩ :: rest) :
    Alike δ α (execPull L s) (execPull L t) := by
  simp only [execPull, hpc, (pc_of_blur h).symm.trans hpc]
  cases l with
  | p0 => exact alike_pinSetDir h hα _ _ _
  | p1 => exact alike_pinSetVal h hα _ _
  | p2 => exact alike_delayHalf_goto h _
  | p3 => exact alike_ret h hα _

theorem execRelease_alike {L : Line} {l : ReleaseLabel} (hpc : s.pc = ⟨.release l, r⟩ :: rest) :
    Alike δ α (execRelease L s) (execRelease L t) := by
  simp only [execRelease, hpc, (pc_of_blur h).symm.trans hpc]
  cases l with
  | l0 => exact alike_pinSetDir h hα _ _ _
  | l1 => exact alike_delayHalf_goto h _
  | l2 => exact alike_pinGetVal h hα L (fun v l => { l with releaseV := some v }) _ fun _ _ => rfl
  | l3 => exact alike_need (same_of_blur h (fun u => u.locals.releaseV) fun _ => rfl) fun _ => alike_ret h hα _

theorem execWaitClockReleased_alike {l : WaitLabel} (hpc : s.pc = ⟨.waitClockReleased l, r⟩ :: rest) :
    Alike δ α (execWaitClockReleased s) (execWaitClockReleased t) := by
  simp only [execWaitClockReleased, hpc, (pc_of_blur h).symm.trans hpc]
  cases l with
  | w0 => exact alike_pinSetDir h hα _ _ _
  | w1 | w4 => exact alike_delayHalf_goto h _
  | w2 => exact alike_pinGetVal h hα _ (fun v l => { l with waitV := some v }) _ fun _ _ => rfl
  | w3 =>
    refine alike_need (same_of_blur h (fun u => u.locals.waitV) fun _ => rfl) fun v => ?_
    split
    · exact alike_delay_goto h _ _
    · exact alike_goto h _
  | w5 => exact alike_ret h hα _

theorem execReadDataIdle_alike {l : IdleLabel} (hpc : s.pc = ⟨.readDataIdle l, r⟩ :: rest) :
    Alike δ α (execReadDataIdle s) (execReadDataIdle t) := by
  simp only [execReadDataIdle, hpc, (pc_of_blur h).symm.trans hpc]
  cases l with
  | i0 => exact alike_pinSetDir h hα _ _ _
  | i1 => exact alike_delayHalf_goto h _
  | i2 => exact alike_pinGetVal h hα _ (fun v l => { l with idleV := some v }) _ fun _ _ => rfl
  | i3 => exact alike_need (same_of_blur h (fun u => u.locals.idleV) fun _ => rfl) fun _ => alike_ret h hα _

/-- The statement of the frame on top. -/
theorem exec_top_alike {i : Instr} {p : Pos} (hpc : s.pc = ⟨p, r⟩ :: rest) (hop : opOf i = p.op) :
    Alike δ α (exec i s) (exec i t) := by
  cases p <;> cases i <;> cases hop
  · exact execNew_alike h hα hpc
  · exact execWrite_alike h hα hpc
  · exact execRead_alike h hα hpc
  · exact execWriteRead_alike h hα hpc
  · exact execStart_alike h hα hpc
  · exact execStop_alike h hα hpc
  · exact execWriteBit_alike h hα hpc
  · exact execReadBit_alike h hα hpc
  · exact execWriteByte_alike h hα hpc
  · exact execReadByte_alike h hα hpc
  · exact execRecover_alike h hα hpc
  · exact execPull_alike h hα hpc
  · exact execRelease_alike h hα hpc
  · exact execWaitClockReleased_alike h hα hpc
  · exact execReadDataIdle_alike h hα hpc

theorem exec_alike (i : Instr) : Alike δ α (exec i s) (exec i t) := by
  rcases exec_top_or_begin i s with ⟨p, r, rest, hpc, hop⟩ | hs
  · exact exec_top_alike h hα hpc hop
  · rcases exec_top_or_begin i t with ⟨p, r, rest, hpc, hop⟩ | ht
    · exact exec_top_alike h hα ((pc_of_blur h).trans hpc) hop
    · rw [hs, ht]
      split
      · exact alike_issue h i
      · exact alike_call h i

/-! ### The host's accesses and the step -/

theorem writeReg_alike (r : Reg) (w : Word) : Alike δ α (s.writeReg r w) (t.writeReg r w) := by
  have hbusy := same_of_blur h State.busy fun _ => rfl
  have hconf := same_of_blur h State.configured fun _ => rfl
  cases r with
  | cmd =>
    dsimp only [State.writeReg, State.writeCmd]
    rw [hbusy]
    split
    · exact alike_map h (F := State.refuse .busy) fun _ => rfl
    · split
      · exact exec_alike h hα _
      · exact alike_map h (F := State.refuse .illegal) fun _ => rfl
  | freq =>
    dsimp only [State.writeReg]
    rw [hbusy, hconf]
    split
    · exact alike_map h (F := State.refuse .access) fun _ => rfl
    · exact alike_map h (F := fun u => { u with freq := w }.respond .written) fun _ => rfl
  | wlen =>
    dsimp only [State.writeReg]
    rw [hbusy]
    split
    · exact alike_map h (F := State.refuse .access) fun _ => rfl
    · exact alike_map h (F := fun u => { u with wlen := w }.respond .written) fun _ => rfl
  | rlen =>
    dsimp only [State.writeReg]
    rw [hbusy]
    split
    · exact alike_map h (F := State.refuse .access) fun _ => rfl
    · exact alike_map h (F := fun u => { u with rlen := w }.respond .written) fun _ => rfl
  | status | result | errKind | halfUs => exact alike_map h (F := State.refuse .access) fun _ => rfl

omit hα in
theorem readReg_alike (r : Reg) : Alike δ α (.next (s.readReg r)) (.next (t.readReg r)) := by
  refine alike_map h (F := State.readReg r) fun u => ?_
  cases r with
  | errKind =>
    have hres : (u.blur δ α).resultRead = u.resultRead := rfl
    dsimp only [State.readReg]
    rw [hres]
    split <;> rfl
  | cmd | status | result | freq | halfUs | wlen | rlen => rfl

omit hα in
theorem writeBuf_alike (b : Buf) (i : Nat) (v : Byte) :
    Alike δ α (.next (s.writeBuf b i v)) (.next (t.writeBuf b i v)) := by
  refine alike_map h (F := State.writeBuf b i v) fun u => ?_
  have hres : (u.blur δ α).bufRefused i = u.bufRefused i := rfl
  rw [State.writeBuf, State.writeBuf, hres]
  split
  · rfl
  · cases b <;> rfl

omit hα in
theorem readBuf_alike (b : Buf) (i : Nat) : Alike δ α (.next (s.readBuf b i)) (.next (t.readBuf b i)) := by
  refine alike_map h (F := State.readBuf b i) fun u => ?_
  have hres : (u.blur δ α).bufRefused i = u.bufRefused i := rfl
  rw [State.readBuf, State.readBuf, hres]
  split
  · rfl
  · cases b <;> rfl

theorem hostAccess_alike (x : HostAction) : Alike δ α (hostAccess x s) (hostAccess x t) := by
  cases x with
  | writeReg r w => exact writeReg_alike h hα r w
  | readReg r => exact readReg_alike h r
  | writeBuf b i v => exact writeBuf_alike h b i v
  | readBuf b i => exact readBuf_alike h b i
  | hardwareReset => rfl

theorem sequencerStep_alike : Alike δ α (sequencerStep s) (sequencerStep t) := by
  unfold sequencerStep
  rw [pc_of_blur h]
  cases t.pc with
  | nil => exact .next h
  | cons f _ =>
    exact alike_need (same_of_blur h (State.operationAt · f.pos) fun _ => by cases f.pos <;> rfl) (exec_alike h hα)

theorem step_alike : Alike δ α (step s) (step t) := by
  unfold step
  rw [same_of_blur h State.due fun _ => rfl]
  cases t.due with
  | some x => exact hostAccess_alike (s := s.popRequest) (t := t.popRequest) (congrArg State.popRequest h) hα x
  | none => exact sequencerStep_alike (s := s.tick) (t := t.tick) (congrArg State.tick h) hα

end

end

end Sys2Proof.Machine

open Sys2Proof Sys2Proof.Machine

/-- Settles O57: no statement and no access reads drv. -/
theorem drvSteersNothing : Obligations.DrvSteersNothing := by
  rw [Obligations.DrvSteersNothing, State.eraseDrv_eq_blur]
  exact fun _ _ h => step_alike h rfl

/-- Settles O59: the register `a` is written by the command that owns it and read by nothing. -/
theorem acknowledgeSteersNothing : Obligations.AcknowledgeSteersNothing := by
  rw [Obligations.AcknowledgeSteersNothing, State.eraseAck_eq_blur]
  exact fun _ _ h => step_alike h rfl
end


section
/-! SUPPORT. Lines are sampled only while RELEASED and given a value only while switched to Output (R59): what the line
operation on top of the stack has made of its line; and the settlement of O52. -/

namespace Sys2Proof.Machine

/-- What a line operation at `p` has made of its line. -/
def State.sampleAt (s : State) : Pos → Prop
  | .release .l1 | .release .l2 => ∀ L, s.locals.releaseL = some L → s.drv L = .released
  | .waitClockReleased .w1 | .waitClockReleased .w2 => s.drvScl = .released
  | .readDataIdle .i1 | .readDataIdle .i2 => s.drvSda = .released
  | .pull .p1 => ∀ L, s.locals.pullL = some L → s.drv L = .outUnset
  | _ => True

section

variable {i : Instr} {s t : State} {p q : Pos} {r : Option Byte} {e : Event} {f g : Frame} {rest : List Frame}

theorem State.sampleInv_nil (h : s.pc = []) : s.sampleInv := by
  unfold State.sampleInv
  rw [h]
  trivial

theorem State.sampleInv_cons (h : s.pc = f :: rest) : s.sampleInv ↔ s.sampleAt f.pos := by
  obtain ⟨p, r⟩ := f
  unfold State.sampleInv
  rw [h]
  cases p with
  | release l | waitClockReleased l | readDataIdle l | pull l => cases l <;> simp [State.sampleAt]
  | new | write | read | writeRead | start | stop | writeBit | readBit | writeByte | readByte | recover => rfl

/-! ### Positions that ask nothing of a line -/

theorem State.sampleAt_entry (c : Instr) (s : State) : s.sampleAt (entryOf c) := by cases c <;> trivial

theorem State.sampleAt_of_layer (h : 0 < p.op.layer) (s : State) : s.sampleAt p := by
  cases p <;> trivial

theorem State.sampleAt_of_silent (hq : p.steps q = true) (hp : p.isSilent = true) (s : State) : s.sampleAt q := by
  unfold Pos.steps at hq
  split at hq <;> trivial

theorem State.sampleAt_of_resumes (hq : p.resumes q = true) (s : State) : s.sampleAt q := by
  unfold Pos.resumes at hq
  split at hq <;> trivial

/-- A delay keeps what the operation has made of its line. -/
theorem State.sampleAt_of_delay (hq : p.steps q = true) (hp : p.isDelay = true) (h : s.sampleAt p) : s.sampleAt q := by
  unfold Pos.steps at hq
  split at hq <;> trivial

/-! ### The pin events -/

/-- The line operand is the register of the operation on top. -/
theorem pullL_of_operationAt {L : Line} (h : s.operationAt p = some (.pull L)) : s.locals.pullL = some L := by
  cases p <;> simp_all [State.operationAt]

theorem releaseL_of_operationAt {L : Line} (h : s.operationAt p = some (.release L)) : s.locals.releaseL = some L := by
  cases p <;> simp_all [State.operationAt]

/-- A successful switch of a line sets it (R11). -/
theorem State.observed_setDir_drv (L : Line) (d : Dir) (s : State) :
    (s.observed (.setDir L d .ok)).drv L = Dir.drv d := by
  cases L <;> cases d <;> rfl

theorem Ack.eq_ok {a : Ack} {L : Line} {d : Dir} (h : ∀ k, (Event.setDir L d a).answerOf ≠ some (.err k)) :
    a = .ok := by
  cases a with
  | ok => rfl
  | err k => exact absurd rfl (h k)

/-- An event answered ok leaves its line as the next statement needs it. -/
theorem Issues.sampleAt {l : Locals} (he : Issues i p e q) (hok : ∀ k, e.answerOf ≠ some (.err k))
    (hi : s.operationAt p = some i ∨ i.isCommand = true)
    (hline : l.pullL = s.locals.pullL ∧ l.releaseL = s.locals.releaseL) : ((s.observed e).setLocals l).sampleAt q := by
  obtain ⟨hpull, hrelease⟩ := hline
  cases he with
  | claimScl | claimSda | pullVal | releaseVal | waitVal | idleVal => trivial
  | pullDir L a =>
    obtain rfl := Ack.eq_ok hok
    intro M hM
    have hL := pullL_of_operationAt (hi.resolve_right nofun)
    obtain rfl : L = M := Option.some.inj (hL.symm.trans (hpull.symm.trans hM))
    exact s.observed_setDir_drv L .output
  | releaseDir L a =>
    obtain rfl := Ack.eq_ok hok
    intro M hM
    have hL := releaseL_of_operationAt (hi.resolve_right nofun)
    obtain rfl : L = M := Option.some.inj (hL.symm.trans (hrelease.symm.trans hM))
    exact s.observed_setDir_drv L .input
  | waitDir a | idleDir a =>
    obtain rfl := Ack.eq_ok hok
    rfl

/-- R59, read off the invariant: a sampled line is RELEASED. -/
theorem Issues.getVal_released {L : Line} {a : PinAnswer} (he : Issues i p (.getVal L a) q)
    (hi : s.operationAt p = some i ∨ i.isCommand = true) (h : s.sampleAt p) : s.drv L = .released := by
  cases he with
  | releaseVal => exact h L (releaseL_of_operationAt (hi.resolve_right nofun))
  | waitVal | idleVal => exact h

/-- R59, read off the invariant: a line is given a value in `OUT_UNSET` only. -/
theorem Issues.setVal_outUnset {L : Line} {v : Bit} {a : Ack} (he : Issues i p (.setVal L v a) q)
    (hi : s.operationAt p = some i ∨ i.isCommand = true) (h : s.sampleAt p) : s.drv L = .outUnset := by
  cases he with
  | pullVal => exact h L (pullL_of_operationAt (hi.resolve_right nofun))

/-! ### Steps -/

theorem Effect.sampleInv (h : Effect i s p r (.next t)) (hpc : s.pc = ⟨p, r⟩ :: rest) (hwf : stackWf s.pc = true)
    (hi : s.operationAt p = some i ∨ i.isCommand = true) (hs : s.sampleInv) : t.sampleInv := by
  rw [State.sampleInv_cons hpc] at hs
  cases h with
  | move q l hq =>
    rw [State.sampleInv_cons (f := ⟨q, none⟩) (rest := rest) (by simp [hpc])]
    exact hq.elim (fun h => State.sampleAt_of_silent h.1 h.2 _) fun h => State.sampleAt_of_resumes h.2 _
  | call c l =>
    rw [State.sampleInv_cons (f := ⟨entryOf c, none⟩) rfl]
    exact State.sampleAt_entry c _
  | tail c =>
    rw [State.sampleInv_cons (f := ⟨entryOf c, none⟩) (rest := rest) (by rw [State.tailcall_top hpc])]
    exact State.sampleAt_entry c _
  | ret v =>
    cases rest with
    | nil => exact State.sampleInv_nil (by rw [State.ret_bottom hpc]; rfl)
    | cons g gs =>
      rw [State.sampleInv_cons (f := { g with returned := some v }) (rest := gs) (by rw [State.ret_caller hpc])]
      rw [hpc] at hwf
      exact State.sampleAt_of_layer (Nat.zero_lt_of_lt (Pos.layer_lt_of_calls (stackWf_cons_cons.mp hwf).2.1)) _
  | delay us q hq hp =>
    rw [State.sampleInv_cons (f := ⟨q, none⟩) (rest := rest) (by simp [hpc])]
    exact State.sampleAt_of_delay (s := s.delay us) hq hp hs
  | event e q l he hok _ hline =>
    rw [State.sampleInv_cons (f := ⟨q, none⟩) (rest := rest) (by simp [hpc])]
    exact he.sampleAt hok hi hline
  | pinFault | zero => exact State.sampleInv_nil rfl
  | positive | configure => trivial
  | store j v hi =>
    rw [State.sampleInv_cons (f := ⟨p, none⟩) (rest := rest) (by simp [hpc])]
    rcases hi with ⟨_, -, rfl⟩ | ⟨_, -, rfl⟩ <;> trivial

/-- The event of a step, if it appends one: a pin event or a delay of the statement on top. -/
theorem step_event (hstep : step s = .next t) (htrace : t.trace = e :: s.trace) :
    (∃ i p r rest, s.pc = ⟨p, r⟩ :: rest ∧ (s.operationAt p = some i ∨ i.isCommand = true) ∧ ∃ q, Issues i p e q) ∨
      ∃ us, e = .delay us := by
  cases stepEffect_of_step hstep with
  | host => exact absurd htrace.symm (List.cons_ne_self _ _)
  | accepted i rs =>
    obtain ⟨-, -, htr, -⟩ := State.accept_fields i { s with requests := rs }
    exact nomatch htr.symm.trans htrace
  | statement i p r rest rs _ hpc hop hi he =>
    rcases he.trace hpc with h | ⟨e', h, hissues⟩
    · exact absurd (htrace.symm.trans h) (List.cons_ne_self _ _)
    · obtain rfl : e = e' := (List.cons.inj (htrace.symm.trans h)).1
      exact hissues.imp_left fun h => ⟨i, p, r, rest, hpc, hi, h⟩

/-- What the running line operation has made of its line is kept. -/
theorem step_sampleInv (hwf : stackWf s.pc = true) (hs : s.sampleInv) (hstep : step s = .next t) : t.sampleInv := by
  cases stepEffect_of_step hstep with
  | host => exact hs
  | accepted i rs =>
    rw [State.sampleInv_cons (State.accept_pc i _)]
    exact State.sampleAt_entry i _
  | statement i p r rest rs _ hpc hop hi he =>
    exact he.sampleInv hpc hwf (hi.imp_left fun h => by cases p <;> exact h) hs

end

end Sys2Proof.Machine

open Sys2Proof Sys2Proof.Machine

/-- Settles O52: the events are those of the line operation on top, and before each of them it has switched its line. -/
theorem samplesOnlyReleasedLines : Obligations.SamplesOnlyReleasedLines := by
  intro s t hwf hs hstep
  refine ⟨step_sampleInv hwf hs hstep, fun L a htrace => ?_, fun L v a htrace => ?_⟩
  · rcases step_event hstep htrace with ⟨i, p, r, rest, hpc, hi, q, he⟩ | ⟨_, h⟩
    · exact he.getVal_released hi ((State.sampleInv_cons hpc).mp hs)
    · exact nomatch h
  · rcases step_event hstep htrace with ⟨i, p, r, rest, hpc, hi, q, he⟩ | ⟨_, h⟩
    · exact ⟨he.setVal_zero, he.setVal_outUnset hi ((State.sampleInv_cons hpc).mp hs)⟩
    · exact nomatch h
end


section
/-! SUPPORT. The line states of a transaction (R104, R105): what each position requires, that every statement keeps it, and
the settlement of O53. -/

namespace Sys2Proof.Machine

section

variable {i c : Instr} {s t : State} {p q : Pos} {r : Option Byte} {e : Event} {f g : Frame} {rest : List Frame}
  {ln : Drv × Drv}

/-! ### The tables of the line states along the operations' texts -/

theorem Pos.linesAt_of_steps (hq : p.steps q = true) (h : p.linesAt ln = true ∨ p.linesBack ln = true) :
    q.linesAt ln = true := by
  unfold Pos.steps at hq
  split at hq <;> grind [Pos.linesAt, Pos.linesBack, bothPulled, bothReleased, dataReleased]

theorem Pos.linesAt_of_resumes (hq : p.resumes q = true) (h : p.linesBack ln = true) : q.linesAt ln = true := by
  obtain ⟨c, d⟩ := ln
  unfold Pos.resumes at hq
  split at hq <;>
    simp_all [Pos.linesAt, Pos.linesBack, bothPulled, bothReleased, dataReleased, dataEither]

/-- An operation above the line controller begins in the line states of its call. -/
theorem Pos.linesAt_entry (hc : p.calls (opOf c) = true) (hinv : p.invokes c = true) (h : p.linesAt ln = true) :
    (entryOf c).linesAt ln = true := by
  obtain ⟨x, y⟩ := ln
  unfold Pos.calls at hc
  split at hc <;> cases c <;>
    simp_all [opOf, Pos.invokes, entryOf, Pos.linesAt, bothPulled, bothReleased, dataReleased, entryLines]

/-- The line states in which an operation above the line controller returns; RECOVER returns through STOP. -/
def Op.linesEnd (o : Op) (ln : Drv × Drv) : Bool :=
  match o with
  | .stop | .recover => bothReleased ln
  | _ => bothPulled ln

theorem Pos.linesEnd_of_isLast (hp : p.isLast = true) (hl : 0 < p.op.layer) (hc : p.op.isCommand = false)
    (h : p.linesAt ln = true ∨ p.linesBack ln = true) : p.op.linesEnd ln = true := by
  unfold Pos.isLast at hp
  rcases h with h | h <;> split at hp <;> trivial

theorem Pos.linesBack_of_linesEnd {o : Op} (hc : q.calls o = true) (hl : 0 < o.layer) (h : o.linesEnd ln = true) :
    q.linesBack ln = true := by
  unfold Pos.calls at hc
  split at hc <;> trivial

/-- STOP and RECOVER replace each other in the line states the other begins in. -/
theorem Pos.linesAt_of_tail (hc : (p = .stop .e2 ∧ c = .recover) ∨ (p = .recover .v11 ∧ c = .stop))
    (h : p.linesAt ln = true ∨ p.linesBack ln = true) : (entryOf c).linesAt ln = true := by
  obtain ⟨x, y⟩ := ln
  rcases hc with ⟨rfl, rfl⟩ | ⟨rfl, rfl⟩ <;>
    simp_all [entryOf, Pos.linesAt, Pos.linesBack, bothPulled, bothReleased, dataReleased]

/-- A command that returns has released both lines. -/
theorem Pos.bothReleased_of_command (hp : p.isLast = true) (hc : p.op.isCommand = true) (hnew : p.op ≠ .new)
    (h : p.linesAt ln = true ∨ p.linesBack ln = true) : ln = (.released, .released) := by
  unfold Pos.isLast at hp
  split at hp <;> simp_all [Pos.op, Op.isCommand, Pos.linesAt, Pos.linesBack, bothReleased]

/-! #### What the line operations make of the lines -/

theorem Pos.linesBack_pulled (hc : q.calls .pull = true) (h : q.linesAt ln = true) :
    q.linesBack (withLine q.line .pulled ln) = true := by
  unfold Pos.calls at hc
  split at hc <;>
    grind [Pos.linesAt, Pos.linesBack, Pos.line, withLine, bothPulled, bothReleased, dataReleased, dataEither,
      entryLines]

theorem Pos.linesBack_released (hc : q.calls .release = true) (h : q.linesAt ln = true) :
    q.linesBack (withLine q.line .released ln) = true := by
  unfold Pos.calls at hc
  split at hc <;>
    grind [Pos.linesAt, Pos.linesBack, Pos.line, withLine, bothPulled, bothReleased, dataReleased, dataEither,
      entryLines]

theorem Pos.linesBack_clock (hc : q.calls .waitClockReleased = true) (h : q.linesAt ln = true) :
    q.linesBack (withLine .scl .released ln) = true := by
  unfold Pos.calls at hc
  split at hc <;>
    grind [Pos.linesAt, Pos.linesBack, Pos.line, withLine, bothPulled, bothReleased, dataReleased, dataEither,
      entryLines]

theorem Pos.linesBack_data (hc : q.calls .readDataIdle = true) (h : q.linesAt ln = true) :
    q.linesBack (withLine .sda .released ln) = true := by
  unfold Pos.calls at hc
  split at hc <;>
    grind [Pos.linesAt, Pos.linesBack, Pos.line, withLine, bothPulled, bothReleased, dataReleased, dataEither,
      entryLines]

/-! #### Where the data line moves under a released clock -/

theorem Pos.eq_s3_of_pull {d : Drv} (hc : q.calls .pull = true) (hline : q.line = .sda)
    (h : q.linesAt (.released, d) = true) : q = .start .s3 := by
  unfold Pos.calls at hc
  split at hc <;> simp_all [Pos.linesAt, Pos.line, bothPulled, dataEither]

theorem Pos.eq_e1_of_release {d : Drv} (hc : q.calls .release = true) (hline : q.line = .sda) (hd : d ≠ .released)
    (h : q.linesAt (.released, d) = true) : q = .stop .e1 := by
  unfold Pos.calls at hc
  split at hc <;> simp_all [Pos.linesAt, Pos.line, bothPulled, dataReleased]

theorem Pos.data_released_of_idle {d : Drv} (hc : q.calls .readDataIdle = true) (h : q.linesAt (.released, d) = true) :
    d = .released := by
  unfold Pos.calls at hc
  split at hc <;> simp_all [Pos.linesAt, bothPulled, bothReleased, entryLines]

/-! ### The invariant, frame by frame -/

/-- What the caller `g` of a line operation at `p` requires of the lines. -/
def State.lineOrder (s : State) (p g : Pos) : Prop :=
  match p with
  | .pull l =>
    s.locals.pullL = some g.line ∧
      match l with
      | .p0 => g.linesAt s.lines = true
      | .p1 => s.drv g.line = .outUnset ∧ g.linesBack (withLine g.line .pulled s.lines) = true
      | .p2 | .p3 => g.linesBack s.lines = true
  | .release l => s.locals.releaseL = some g.line ∧ (if l = .l0 then g.linesAt s.lines else g.linesBack s.lines) = true
  | .waitClockReleased l => (if l = .w0 then g.linesAt s.lines else g.linesBack s.lines) = true
  | .readDataIdle l => (if l = .i0 then g.linesAt s.lines else g.linesBack s.lines) = true
  | _ => True

theorem State.orderInv_nil (h : s.pc = []) : s.orderInv := by
  unfold State.orderInv
  rw [h]
  exact ⟨rfl, trivial⟩

/-- Above the line controller the frame on top alone says what is required. -/
theorem State.orderInv_upper (h : s.pc = f :: rest) (hl : 0 < f.pos.op.layer) :
    s.orderInv ↔ stackWf (f :: rest) = true ∧
      (if f.returned = none then f.pos.linesAt s.lines else f.pos.linesBack s.lines) = true := by
  obtain ⟨p, r⟩ := f
  unfold State.orderInv
  rw [h]
  cases p with
  | pull | release | waitClockReleased | readDataIdle => exact absurd hl (Nat.lt_irrefl 0)
  | new | write | read | writeRead | start | stop | writeBit | readBit | writeByte | readByte | recover => rfl

/-- In a line operation its caller says what is required. -/
theorem State.orderInv_line (h : s.pc = f :: g :: rest) (hl : f.pos.op.layer = 0) :
    s.orderInv ↔ stackWf (f :: g :: rest) = true ∧ s.lineOrder f.pos g.pos := by
  obtain ⟨p, r⟩ := f
  unfold State.orderInv
  rw [h]
  cases p with
  | pull l => cases l <;> rfl
  | release | waitClockReleased | readDataIdle => rfl
  | new | write | read | writeRead | start | stop | writeBit | readBit | writeByte | readByte | recover =>
    exact absurd hl (Nat.succ_ne_zero _)

theorem State.lines_or_of_orderInv (h : s.pc = f :: rest) (hl : 0 < f.pos.op.layer) (hs : s.orderInv) :
    f.pos.linesAt s.lines = true ∨ f.pos.linesBack s.lines = true := by
  obtain ⟨-, h⟩ := (State.orderInv_upper h hl).mp hs
  split at h
  · exact .inl h
  · exact .inr h

/-! #### The frames a statement leaves on top -/

theorem State.orderInv_goto (ht : t.pc = ⟨q, none⟩ :: rest) (hwf : stackWf t.pc = true) (hl : 0 < q.op.layer)
    (h : q.linesAt t.lines = true) : t.orderInv :=
  (State.orderInv_upper ht hl).mpr ⟨ht ▸ hwf, h⟩

theorem State.orderInv_back {v : Byte} (ht : t.pc = { g with returned := some v } :: rest) (hwf : stackWf t.pc = true)
    (hl : 0 < g.pos.op.layer) (h : g.pos.linesBack t.lines = true) : t.orderInv :=
  (State.orderInv_upper ht hl).mpr ⟨ht ▸ hwf, h⟩

/-- A line operation begins on its caller's line. -/
theorem State.lineOrder_entry (hc : p.calls (opOf c) = true) (hinv : p.invokes c = true) (hl : (opOf c).layer = 0)
    (h : p.linesAt s.lines = true) : (s.call c).lineOrder (entryOf c) p := by
  cases c with
  | pull L | release L => exact ⟨congrArg some (eq_of_beq hinv), h⟩
  | waitClockReleased | readDataIdle => exact h
  | new | write | read | writeRead | start | stop | writeBit | readBit | writeByte | readByte | recover =>
    exact absurd hl (Nat.succ_ne_zero _)

theorem State.orderInv_call (hpc : s.pc = ⟨p, r⟩ :: rest) (hc : p.calls (opOf c) = true) (hinv : p.invokes c = true)
    (hwf : stackWf (s.call c).pc = true) (h : p.linesAt s.lines = true) : (s.call c).orderInv := by
  have ht : (s.call c).pc = ⟨entryOf c, none⟩ :: ⟨p, r⟩ :: rest := by simp [hpc]
  have hop : (entryOf c).op = opOf c := entryOf_op c
  rcases Nat.eq_zero_or_pos (opOf c).layer with hl | hl
  · exact (State.orderInv_line ht (by rw [hop]; exact hl)).mpr ⟨ht ▸ hwf, State.lineOrder_entry hc hinv hl h⟩
  · exact State.orderInv_goto ht hwf (by rw [hop]; exact hl) (Pos.linesAt_entry hc hinv h)

/-! ### Statements above the line controller -/

/-- Above the line controller the only pin events are NEW's. -/
theorem Issues.op_new (he : Issues i p e q) (hl : 0 < p.op.layer) : p.op = .new ∧ q.op = .new := by
  cases he <;> trivial

theorem Pos.linesAt_new (h : q.op = .new) (ln : Drv × Drv) : q.linesAt ln = true := by
  cases q <;> trivial

theorem layer_of_op (hop : q.op = p.op) (hl : 0 < p.op.layer) : 0 < q.op.layer := by rwa [hop]

theorem Effect.orderInv_upper (h : Effect i s p r (.next t)) (hpc : s.pc = ⟨p, r⟩ :: rest) (hl : 0 < p.op.layer)
    (hs : s.orderInv) : t.orderInv := by
  have hat := State.lines_or_of_orderInv hpc hl hs
  obtain ⟨hwf, hlines⟩ := (State.orderInv_upper hpc hl).mp hs
  have hwf' := (h.stackMove hpc).stackWf hwf
  cases h with
  | move q l hq =>
    refine State.orderInv_goto (q := q) (rest := rest) (by simp [hpc]) hwf' ?_ ?_ <;>
      rcases hq with ⟨hq, -⟩ | ⟨hr, hq⟩
    · exact layer_of_op (Pos.op_of_steps hq) hl
    · exact layer_of_op (Pos.op_of_resumes hq) hl
    · exact Pos.linesAt_of_steps hq hat
    · exact Pos.linesAt_of_resumes hq (by rwa [if_neg hr] at hlines)
  | call c l hr hc hinv =>
    refine State.orderInv_call (s := s.setLocals l) hpc hc hinv hwf' ?_
    rwa [if_pos hr] at hlines
  | tail c hc =>
    have ht : (s.tailcall c).pc = ⟨entryOf c, none⟩ :: rest := by rw [State.tailcall_top hpc]
    have hlt : (s.tailcall c).lines = s.lines := by rw [State.tailcall_top hpc]; rfl
    refine State.orderInv_goto ht hwf' ?_ (hlt ▸ Pos.linesAt_of_tail hc hat)
    rcases hc with ⟨-, rfl⟩ | ⟨-, rfl⟩ <;> decide
  | ret v hp =>
    cases rest with
    | nil => exact State.orderInv_nil (by rw [State.ret_bottom hpc]; rfl)
    | cons g gs =>
      have ht : (s.ret v).pc = { g with returned := some v } :: gs := by rw [State.ret_caller hpc]
      have hlt : (s.ret v).lines = s.lines := by rw [State.ret_caller hpc]; rfl
      have hc := (stackWf_cons_cons.mp hwf).2.1
      have hlg := Pos.layer_lt_of_calls hc
      have hcmd := Op.not_isCommand_of_layer (Nat.lt_of_lt_of_le hlg g.pos.op.layer_le_three)
      refine State.orderInv_back ht hwf' (Nat.zero_lt_of_lt hlg) ?_
      rw [hlt]
      exact Pos.linesBack_of_linesEnd hc hl (Pos.linesEnd_of_isLast hp hl hcmd hat)
  | delay us q hq =>
    exact State.orderInv_goto (q := q) (rest := rest) (by simp [hpc]) hwf' (layer_of_op (Pos.op_of_steps hq) hl)
      (Pos.linesAt_of_steps hq hat)
  | event e q l he =>
    exact State.orderInv_goto (q := q) (rest := rest) (by simp [hpc]) hwf' (layer_of_op (Pos.op_of_steps he.steps) hl)
      (Pos.linesAt_new (he.op_new hl).2 _)
  | pinFault | zero => exact State.orderInv_nil rfl
  | positive => exact State.orderInv_goto (q := .new .n1) rfl hwf' (by decide) rfl
  | configure => exact State.orderInv_goto (q := .new .n4) rfl hwf' (by decide) rfl
  | store j v hi hr =>
    have hback : p.linesBack s.lines = true := by rwa [if_neg (by simp [hr])] at hlines
    refine State.orderInv_goto (q := p) (rest := rest) (by simp [hpc]) hwf' hl (Pos.linesAt_of_resumes ?_ hback)
    rcases hi with ⟨_, -, rfl⟩ | ⟨_, -, rfl⟩ <;> rfl

/-! ### Statements of the line operations -/

/-- A line operation's delays and silent statements go on as its caller requires. -/
theorem State.lineOrder_of_steps (hq : p.steps q = true) (hp : p.isDelay = true ∨ p.isSilent = true)
    (hl : p.op.layer = 0) (h : s.lineOrder p g.pos) : s.lineOrder q g.pos := by
  unfold Pos.steps at hq
  split at hq <;> trivial

/-- A line operation returns in the line states its caller goes on from. -/
theorem State.linesBack_of_lineOrder (hp : p.isLast = true) (hl : p.op.layer = 0) (h : s.lineOrder p g.pos) :
    g.pos.linesBack s.lines = true := by
  unfold Pos.isLast at hp
  split at hp <;> first | exact h.2 | trivial

theorem State.observed_setDir_lines (L : Line) (d : Dir) (s : State) :
    (s.observed (.setDir L d .ok)).lines = withLine L (Dir.drv d) s.lines := by cases L <;> cases d <;> rfl

theorem State.observed_setVal_lines (L : Line) (v : Bit) (s : State) :
    (s.observed (.setVal L v .ok)).lines = withLine L .pulled s.lines := by cases L <;> rfl

theorem withLine_withLine (L : Line) (d d' : Drv) (ln : Drv × Drv) :
    withLine L d (withLine L d' ln) = withLine L d ln := by
  cases L <;> rfl

/-- A pin event of a line operation makes of the lines what its caller requires. -/
theorem Issues.lineOrder {l : Locals} (he : Issues i p e q) (hok : ∀ k, e.answerOf ≠ some (.err k))
    (hi : s.operationAt p = some i ∨ i.isCommand = true) (hc : g.pos.calls p.op = true)
    (hline : l.pullL = s.locals.pullL ∧ l.releaseL = s.locals.releaseL) (hl : p.op.layer = 0)
    (h : s.lineOrder p g.pos) : ((s.observed e).setLocals l).lineOrder q g.pos := by
  obtain ⟨hpull, hrelease⟩ := hline
  cases he with
  | claimScl | claimSda => exact absurd hl (by decide)
  | pullDir L a =>
    obtain rfl := Ack.eq_ok hok
    obtain ⟨hL, h⟩ := h
    obtain rfl := Option.some.inj (hL.symm.trans (pullL_of_operationAt (hi.resolve_right nofun)))
    refine ⟨hpull.trans hL, s.observed_setDir_drv _ .output, ?_⟩
    show g.pos.linesBack (withLine _ _ (s.observed _).lines) = true
    rw [State.observed_setDir_lines, withLine_withLine]
    exact Pos.linesBack_pulled hc h
  | pullVal L a =>
    obtain ⟨hL, -, h⟩ := h
    obtain rfl := Option.some.inj (hL.symm.trans (pullL_of_operationAt (hi.resolve_right nofun)))
    cases a with
    | err k => exact absurd rfl (hok k)
    | ok =>
      refine ⟨hpull.trans hL, ?_⟩
      show g.pos.linesBack (s.observed _).lines = true
      rwa [State.observed_setVal_lines]
  | releaseDir L a =>
    obtain rfl := Ack.eq_ok hok
    obtain ⟨hL, h⟩ := h
    obtain rfl := Option.some.inj (hL.symm.trans (releaseL_of_operationAt (hi.resolve_right nofun)))
    refine ⟨hrelease.trans hL, ?_⟩
    show g.pos.linesBack (s.observed _).lines = true
    rw [State.observed_setDir_lines]
    exact Pos.linesBack_released hc h
  | releaseVal L a => exact ⟨hrelease.trans h.1, h.2⟩
  | waitDir a =>
    obtain rfl := Ack.eq_ok hok
    show g.pos.linesBack (s.observed _).lines = true
    rw [State.observed_setDir_lines]
    exact Pos.linesBack_clock hc h
  | idleDir a =>
    obtain rfl := Ack.eq_ok hok
    show g.pos.linesBack (s.observed _).lines = true
    rw [State.observed_setDir_lines]
    exact Pos.linesBack_data hc h
  | waitVal a | idleVal a => exact h

/-- A line operation calls nothing. -/
theorem Pos.not_calls_of_layer {o : Op} (hl : p.op.layer = 0) : p.calls o ≠ true :=
  fun h => absurd (Pos.layer_lt_of_calls h) (by rw [hl]; exact Nat.not_lt_zero _)

/-- Congruence of `lineOrder` in the registers it reads. -/
theorem State.lineOrder_setLocals {l : Locals} (hp : p.isSilent = true) (hl : p.op.layer = 0)
    (h : s.lineOrder p g.pos) :
    (s.setLocals l).lineOrder p g.pos := by
  cases p <;> trivial

theorem Effect.orderInv_line (h : Effect i s p r (.next t)) (hpc : s.pc = ⟨p, r⟩ :: g :: rest) (hl : p.op.layer = 0)
    (hi : s.operationAt p = some i ∨ i.isCommand = true) (hs : s.orderInv) : t.orderInv := by
  obtain ⟨hwf, horder⟩ := (State.orderInv_line hpc hl).mp hs
  have hwf' := (h.stackMove hpc).stackWf hwf
  have hc := (stackWf_cons_cons.mp hwf).2.1
  have hgoto {u : State} {q : Pos} (hu : u.pc = ⟨q, none⟩ :: g :: rest) (hwf : stackWf u.pc = true)
      (hq : p.steps q = true) (h : u.lineOrder q g.pos) : u.orderInv :=
    (State.orderInv_line hu (by rw [Pos.op_of_steps hq]; exact hl)).mpr ⟨hu ▸ hwf, h⟩
  cases h with
  | move q l hq =>
    have hq := hq.resolve_right fun h => by
      have := h.2
      unfold Pos.resumes at this
      split at this <;> trivial
    refine hgoto (by simp [hpc]) hwf' hq.1 ?_
    exact State.lineOrder_of_steps (s := s.setLocals l) hq.1 (.inr hq.2) hl (State.lineOrder_setLocals hq.2 hl horder)
  | call c l hr hc => exact absurd hc (Pos.not_calls_of_layer hl)
  | tail c hc => rcases hc with ⟨rfl, -⟩ | ⟨rfl, -⟩ <;> exact absurd hl (by decide)
  | ret v hp =>
    have hlt : (s.ret v).lines = s.lines := by rw [State.ret_caller hpc]; rfl
    refine State.orderInv_back (g := g) (v := v) (rest := rest) (by rw [State.ret_caller hpc]) hwf'
      (Nat.zero_lt_of_lt (Pos.layer_lt_of_calls hc)) ?_
    rw [hlt]
    exact State.linesBack_of_lineOrder hp hl horder
  | delay us q hq hp => exact hgoto (by simp [hpc]) hwf' hq (State.lineOrder_of_steps hq (.inl hp) hl horder)
  | event e q l he hok _ hline => exact hgoto (by simp [hpc]) hwf' he.steps (he.lineOrder hok hi hc hline hl horder)
  | pinFault | zero => exact State.orderInv_nil rfl
  | positive _ hp | configure _ hp => subst hp; exact absurd hl (by decide)
  | store j v hi => rcases hi with ⟨_, -, rfl⟩ | ⟨_, -, rfl⟩ <;> exact absurd hl (by decide)

/-! ### Steps -/

theorem Effect.orderInv (h : Effect i s p r (.next t)) (hpc : s.pc = ⟨p, r⟩ :: rest)
    (hi : s.operationAt p = some i ∨ i.isCommand = true) (hs : s.orderInv) : t.orderInv := by
  rcases Nat.eq_zero_or_pos p.op.layer with hl | hl
  · cases rest with
    | nil =>
      have hwf : stackWf [⟨p, r⟩] = true := hpc ▸ hs.1
      have hcmd := Op.not_isCommand_of_layer (o := p.op) (by rw [hl]; decide)
      exact absurd (hwf.symm.trans hcmd) nofun
    | cons g gs => exact h.orderInv_line hpc hl hi hs
  · exact h.orderInv_upper hpc hl hs

/-- A transaction begins in the entry states of R104. -/
theorem orderInv_accept (hi : i.isCommand = true) (h : entryLines s.lines = true) : (s.accept i).orderInv := by
  have hlines : (s.accept i).lines = s.lines := by
    unfold State.accept
    split <;> rfl
  refine State.orderInv_goto (State.accept_pc i s) (stackWf_accept hi s) ?_ ?_
  · rcases i.isCommand_iff.mp hi with rfl | ⟨_, rfl⟩ | ⟨_, rfl⟩ | ⟨_, rfl⟩ <;> exact Nat.succ_pos _
  · rw [hlines]
    cases i <;> trivial

/-- The line states of R104 are kept. -/
theorem step_orderInv (hs : s.orderInv) (hbusy : s.busyInv) (hentry : s.pc = [] → entryLines s.lines = true)
    (hstep : step s = .next t) : t.orderInv := by
  cases stepEffect_of_step hstep with
  | host => exact hs
  | accepted i rs hi h =>
    have hnil : s.pc = [] := by
      by_contra hne
      exact absurd (hbusy.mpr hne) (by simp [State.not_busy_of_refusal_none h])
    exact orderInv_accept hi (hentry hnil)
  | statement i p r rest rs _ hpc hop hi he =>
    exact he.orderInv hpc (hi.imp_left fun h => by cases p <;> exact h) hs

/-! #### Edges of the data line -/

/-- A statement that keeps the command running moves the data line by its pin event only. -/
theorem Effect.drvSda (h : Effect i s p r (.next t)) (hpc : s.pc = ⟨p, r⟩ :: rest) (hne : t.pc ≠ []) :
    t.drvSda = s.drvSda ∨ ∃ e q, Issues i p e q ∧ (∀ k, e.answerOf ≠ some (.err k)) ∧
      t.drvSda = (e.lines s.lines).2 := by
  cases h with
  | move | call | delay | positive | configure | store => exact .inl (by simp)
  | tail c => exact .inl (by rw [State.tailcall_top hpc])
  | ret v =>
    cases rest with
    | nil => exact absurd (by rw [State.ret_bottom hpc]; rfl) hne
    | cons g gs => exact .inl (by rw [State.ret_caller hpc])
  | event e q l he hok => exact .inr ⟨e, q, he, hok, rfl⟩
  | pinFault | zero => exact absurd rfl hne

/-- Under a released clock the data line moves only at START's S3 and STOP's E1 (R105). -/
theorem Issues.dataEdge {d : Drv} (he : Issues i p e q) (hok : ∀ k, e.answerOf ≠ some (.err k))
    (hi : s.operationAt p = some i ∨ i.isCommand = true) (hc : g.pos.calls p.op = true) (hnew : p.op ≠ .new)
    (hl : s.lineOrder p g.pos) (hlines : s.lines = (.released, d))
    (hedge : (d = .released) ≠ ((e.lines s.lines).2 = .released)) :
    (p = .pull .p0 ∧ g.pos = .start .s3) ∨ (p = .release .l0 ∧ g.pos = .stop .e1) := by
  rw [hlines] at hedge
  cases he with
  | claimScl | claimSda => exact absurd rfl hnew
  | releaseVal | waitVal | idleVal => exact absurd rfl hedge
  | pullDir L a =>
    obtain rfl := Ack.eq_ok hok
    obtain ⟨hL, hl⟩ := hl
    obtain rfl := Option.some.inj (hL.symm.trans (pullL_of_operationAt (hi.resolve_right nofun)))
    cases hline : g.pos.line with
    | scl => rw [hline] at hedge; exact absurd rfl hedge
    | sda => exact .inl ⟨rfl, Pos.eq_s3_of_pull hc hline (hlines ▸ hl)⟩
  | pullVal L a =>
    obtain ⟨hL, hout, -⟩ := hl
    obtain rfl := Option.some.inj (hL.symm.trans (pullL_of_operationAt (hi.resolve_right nofun)))
    cases a with
    | err k => exact absurd rfl (hok k)
    | ok =>
      cases hline : g.pos.line with
      | scl => rw [hline] at hedge; exact absurd rfl hedge
      | sda =>
        rw [hline] at hedge hout
        obtain rfl : d = .outUnset := (congrArg Prod.snd hlines).symm.trans hout
        exact absurd (by simp [Event.lines]) hedge
  | releaseDir L a =>
    obtain rfl := Ack.eq_ok hok
    obtain ⟨hL, hl⟩ := hl
    obtain rfl := Option.some.inj (hL.symm.trans (releaseL_of_operationAt (hi.resolve_right nofun)))
    cases hline : g.pos.line with
    | scl => rw [hline] at hedge; exact absurd rfl hedge
    | sda =>
      rw [hline] at hedge
      have hd : d ≠ .released := by
        rintro rfl
        exact absurd rfl hedge
      exact .inr ⟨rfl, Pos.eq_e1_of_release hc hline hd (hlines ▸ hl)⟩
  | waitDir a =>
    obtain rfl := Ack.eq_ok hok
    exact absurd rfl hedge
  | idleDir a =>
    obtain rfl := Ack.eq_ok hok
    have hat : g.pos.linesAt s.lines = true := hl
    obtain rfl := Pos.data_released_of_idle hc (hlines ▸ hat)
    exact absurd rfl hedge

theorem Effect.dataEdge (h : Effect i s p r (.next t)) (hpc : s.pc = ⟨p, r⟩ :: rest) (hs : s.orderInv)
    (hi : s.operationAt p = some i ∨ i.isCommand = true) (hnew : p.op ≠ .new) (hne : t.pc ≠ [])
    (hedge : dataEdge s t) : atStartEdge s ∨ atStopEdge s := by
  obtain ⟨hclock, hedge⟩ := hedge
  have hlines : s.lines = (.released, s.drvSda) := by rw [← hclock]; rfl
  rcases h.drvSda hpc hne with hsame | ⟨e, q, he, hok, hsda⟩
  · exact absurd (by rw [hsame]) hedge
  · have hl : p.op.layer = 0 := by
      by_contra hpos
      exact hnew (he.op_new (Nat.pos_of_ne_zero hpos)).1
    cases rest with
    | nil => exact absurd (hpc ▸ hs.1 : stackWf [⟨p, r⟩] = true) (by
        simp [stackWf, Op.not_isCommand_of_layer (o := p.op) (by rw [hl]; decide)])
    | cons g gs =>
      obtain ⟨hwf, horder⟩ := (State.orderInv_line hpc hl).mp hs
      rcases he.dataEdge hok hi (stackWf_cons_cons.mp hwf).2.1 hnew horder hlines (by rwa [hsda] at hedge) with
        ⟨rfl, hg⟩ | ⟨rfl, hg⟩
      · exact .inl ⟨r, g, gs, hpc, hg⟩
      · exact .inr ⟨r, g, gs, hpc, hg⟩

/-- A transaction that ends OK leaves both lines released (R137). -/
theorem Effect.released_of_ok (h : Effect i s p r (.next t)) (hpc : s.pc = [⟨p, r⟩]) (hs : s.orderInv)
    (hnew : p.op ≠ .new) (hok : t.responses = .ok :: s.responses) : t.lines = (.released, .released) := by
  cases h with
  | move | call | delay | event | positive | configure | store => simp at hok
  | tail c => simp [State.tailcall_top hpc] at hok
  | pinFault | zero => exact nomatch (List.cons.inj hok).1
  | ret v hp =>
    have hcmd : p.op.isCommand = true := by
      have := hs.1
      rwa [hpc] at this
    have hl : 0 < p.op.layer := by
      by_contra hz
      exact absurd (Op.not_isCommand_of_layer (o := p.op) (by omega)) (by simp [hcmd])
    rw [State.ret_bottom hpc]
    exact Pos.bothReleased_of_command hp hcmd hnew (State.lines_or_of_orderInv hpc hl hs)

theorem step_dataEdge (hs : s.orderInv) (hstep : step s = .next t) (hnew : ∀ f ∈ s.pc, f.pos.op ≠ .new)
    (hne : t.pc ≠ []) (hedge : dataEdge s t) : atStartEdge s ∨ atStopEdge s := by
  cases stepEffect_of_step hstep with
  | host => exact absurd rfl hedge.2
  | accepted i rs =>
    have hsda : (State.accept i { s with requests := rs }).drvSda = s.drvSda := by
      unfold State.accept
      split <;> rfl
    exact absurd (by rw [hsda]) hedge.2
  | statement i p r rest rs _ hpc hop hi he =>
    exact he.dataEdge hpc hs (hi.imp_left fun h => by cases p <;> exact h) (hnew ⟨p, r⟩ (by simp [hpc])) hne hedge

theorem step_released_of_ok (hs : s.orderInv) (hstep : step s = .next t) (hpc : s.pc = [f]) (hnew : f.pos.op ≠ .new)
    (hok : t.responses = .ok :: s.responses) : t.lines = (.released, .released) := by
  cases stepEffect_of_step hstep with
  | host _ _ _ _ _ _ _ _ _ _ _ hresps => exact absurd hok hresps
  | accepted i rs =>
    have hsame : (State.accept i { s with requests := rs }).responses = s.responses := by
      unfold State.accept
      split <;> rfl
    exact absurd (hsame.symm.trans hok) (List.cons_ne_self _ _).symm
  | statement i p r rest rs _ hpc' hop hi he =>
    obtain ⟨rfl, rfl⟩ := List.cons.inj (hpc.symm.trans hpc')
    exact he.released_of_ok hpc' hs hnew hok

end

end Sys2Proof.Machine

open Sys2Proof Sys2Proof.Machine

/-- Settles O53: each position requires line states that every statement hands on to the next; the two edges are where
a line operation moves the data line while its caller has the clock released. -/
theorem dataLineMovesOnlyUnderLowClock : Obligations.DataLineMovesOnlyUnderLowClock := by
  intro s t hs hbusy hentry hstep
  exact ⟨step_orderInv hs hbusy hentry hstep, fun hedge hne hnew => step_dataEdge hs hstep hnew hne hedge,
    fun f hf hnew hok => step_released_of_ok hs hstep hf hnew hok⟩
end


section
/-! SUPPORT. Runs of a machine the host leaves alone, as flows from one stage to another along the events issued; the line
and bit operations as flows, and the settlement of O33 and O34. -/

namespace Sys2Proof.Machine

/-! ### Flows -/

/-- What the statements of a transaction change, the answers and the trace apart. -/
structure Stage where
  lines : Drv × Drv
  pc : List Frame
  locals : Locals
  rbuf : Memory

/-- The state at a stage, with the answers still to come and the trace so far. -/
def State.at (s : State) (A : Stage) (as : List PinAnswer) (tr : List Event) : State :=
  { s with
    drvScl := A.lines.1, drvSda := A.lines.2, pc := A.pc, locals := A.locals, rbuf := A.rbuf,
    answers := as, trace := tr }

/-- The stage a state is at. -/
def State.stage (s : State) : Stage := ⟨s.lines, s.pc, s.locals, s.rbuf⟩

/-- With the pin environment answering as in the events `es`, the machine runs from one stage to another and issues
exactly those. -/
def Flow (s : State) (A : Stage) (es : List Event) (B : Stage) : Prop :=
  ∀ as tr, Runs (s.at A (answersFor es ++ as) tr) (s.at B as (es.reverse ++ tr))

section

variable {s : State} {A B C : Stage} {es es' : List Event}

theorem State.at_stage (s : State) : s.at s.stage s.answers s.trace = s := rfl

theorem State.at_quiet (hq : s.quiet) (A : Stage) (as : List PinAnswer) (tr : List Event) : (s.at A as tr).quiet :=
  State.quiet_congr (s := s) rfl rfl hq

theorem State.at_operationAt (s : State) (A : Stage) (as : List PinAnswer) (tr : List Event) (p : Pos) :
    (s.at A as tr).operationAt p = (s.setLocals A.locals).operationAt p := by cases p <;> rfl

theorem answersFor_append (es es' : List Event) : answersFor (es ++ es') = answersFor es ++ answersFor es' :=
  List.filterMap_append

theorem Flow.refl (s : State) (A : Stage) : Flow s A [] A := fun _ _ => Runs.refl _

theorem Flow.trans (h : Flow s A es B) (h' : Flow s B es' C) : Flow s A (es ++ es') C := by
  intro as tr
  rw [answersFor_append, List.append_assoc, List.reverse_append, List.append_assoc]
  exact (h _ tr).trans (h' as _)

/-- A flow that begins, or ends, without an event. -/
theorem Flow.after (h : Flow s A [] B) (h' : Flow s B es C) : Flow s A es C := h.trans h'

theorem Flow.before (h : Flow s A es B) (h' : Flow s B [] C) : Flow s A es C := by simpa using h.trans h'

end

/-! ### One statement -/

section

variable {s : State} {i c : Instr} {p next : Pos} {r : Option Byte} {rest : List Frame} {ln : Drv × Drv} {l l' : Locals}
  {m m' : Memory} {pc' : List Frame} {L : Line} {d : Drv}

section

variable (hq : s.quiet) (hi : (s.setLocals l).operationAt p = some i)

include hq hi

/-- The statement on top is the next step. -/
theorem Runs.of_statement {as : List PinAnswer} {tr : List Event} {t u : State}
    (h : Does i (s.at ⟨ln, ⟨p, r⟩ :: rest, l, m⟩ as tr) p r rest t) (hu : Runs t u) :
    Runs (s.at ⟨ln, ⟨p, r⟩ :: rest, l, m⟩ as tr) u :=
  Runs.statement (f := ⟨p, r⟩) (State.at_quiet hq _ _ _) rfl ((State.at_operationAt s _ _ _ p).trans hi) (h rfl) hu

/-- A statement without an event. -/
theorem flow_silent
    (h : ∀ as tr, Does i (s.at ⟨ln, ⟨p, r⟩ :: rest, l, m⟩ as tr) p r rest (s.at ⟨ln, pc', l', m'⟩ as tr)) :
    Flow s ⟨ln, ⟨p, r⟩ :: rest, l, m⟩ [] ⟨ln, pc', l', m'⟩ :=
  fun as tr => Runs.of_statement hq hi (h as tr) (Runs.refl _)

/-- A return to a caller. -/
theorem flow_return {g : Frame} {v : Byte}
    (h : ∀ as tr, let u := s.at ⟨ln, ⟨p, r⟩ :: g :: rest, l, m⟩ as tr; Does i u p r (g :: rest) (u.ret v)) :
    Flow s ⟨ln, ⟨p, r⟩ :: g :: rest, l, m⟩ [] ⟨ln, ⟨g.pos, some v⟩ :: rest, l.drop p.op, m⟩ :=
  fun as tr => Runs.of_statement hq hi (h as tr) (Runs.refl _)

theorem flow_delay {us : Nat}
    (h : ∀ as tr, DelaysThen i (s.at ⟨ln, ⟨p, r⟩ :: rest, l, m⟩ as tr) p r rest us next) :
    Flow s ⟨ln, ⟨p, r⟩ :: rest, l, m⟩ [.delay us] ⟨ln, ⟨next, none⟩ :: rest, l, m⟩ :=
  fun as tr => Runs.of_statement hq hi (h as tr) (Runs.refl _)

/-- `Delay(HALF_US)`. -/
theorem flow_delayHalf
    (h : ∀ as tr, let u := s.at ⟨ln, ⟨p, r⟩ :: rest, l, m⟩ as tr; Does i u p r rest (u.delayHalf.goto next)) :
    Flow s ⟨ln, ⟨p, r⟩ :: rest, l, m⟩ [.delay s.halfUs.toNat] ⟨ln, ⟨next, none⟩ :: rest, l, m⟩ :=
  flow_delay hq hi fun as tr => delaysThen_of_delay (h as tr)

/-- A pin event answered ok that sets its line. -/
theorem flow_drive {mk : Ack → Event} (hmk : (mk .ok).answerOf = some (.ok 0))
    (h : ∀ as tr, DrivesThen i (s.at ⟨ln, ⟨p, r⟩ :: rest, l, m⟩ as tr) p r rest L mk d next) :
    Flow s ⟨ln, ⟨p, r⟩ :: rest, l, m⟩ [mk .ok] ⟨withLine L d ln, ⟨next, none⟩ :: rest, l, m⟩ := by
  intro as tr
  have hans : answersFor [mk .ok] ++ as = .ok 0 :: as := by simp [answersFor, hmk]
  rw [hans]
  exact Runs.of_statement hq hi ((h _ tr).1 0 rfl) (by cases L <;> exact Runs.refl _)

/-- A sample. -/
theorem flow_sample {k : Bit → Locals} (v : Bit)
    (h : ∀ as tr, SamplesThen i (s.at ⟨ln, ⟨p, r⟩ :: rest, l, m⟩ as tr) p r rest L k next) :
    Flow s ⟨ln, ⟨p, r⟩ :: rest, l, m⟩ [.getVal L (.ok v)] ⟨ln, ⟨next, none⟩ :: rest, k v, m⟩ :=
  fun _ tr => Runs.of_statement hq hi ((h _ tr).1 v rfl) (Runs.refl _)

end

/-! ### Whole calls -/

/-- A call of `i` as a flow: `CallRuns` from every stage. -/
def CallFlows (s : State) (i : Instr) (es : List Event) (P : Drv × Drv → Drv × Drv) (v : Byte) : Prop :=
  ∀ ln g rest l m, l.latch i = l → calleesDead (opOf i) l →
    Flow s ⟨ln, ⟨entryOf i, none⟩ :: g :: rest, l, m⟩ es ⟨P ln, ⟨g.pos, some v⟩ :: rest, l.drop (opOf i), m⟩

theorem callRuns_of_callFlows {es : Nat → List Event} {P : Drv × Drv → Drv × Drv} {v : Byte}
    (h : ∀ s : State, s.quiet → CallFlows s i (es s.halfUs.toNat) P v) : CallRuns i es P v := by
  intro s g rest as hq hpc hl hdead hans
  have hrun := h s hq s.lines g rest s.locals s.rbuf hl hdead as s.trace
  rwa [← hpc, ← hans] at hrun

/-- The registers of the line operations hold no value. -/
def Locals.linesDead (l : Locals) : Prop :=
  l.pullL = none ∧ l.releaseL = none ∧ l.releaseV = none ∧ l.waitV = none ∧ l.idleV = none

/-- The registers of what a call of `c` runs hold no value. -/
def Locals.readyFor (l : Locals) (c : Instr) : Prop := l.drop (opOf c) = l ∧ calleesDead (opOf c) (l.latch c)

theorem Locals.latch_latch (c : Instr) (l : Locals) : (l.latch c).latch c = l.latch c := by cases c <;> rfl

/-- A call statement: the callee runs from its first label, and the value it hands back completes the statement. -/
theorem flow_call {es : List Event} {P : Drv × Drv → Drv × Drv} {v : Byte} (k : Byte → Locals) (hq : s.quiet)
    (hi : (s.setLocals l).operationAt p = some i) (hcall : CallFlows s c es P v) (hready : l.readyFor c)
    (h : ∀ ln pc as tr, CallsThen i (s.at ⟨ln, pc, l, m⟩ as tr) p c rest next k) :
    Flow s ⟨ln, ⟨p, none⟩ :: rest, l, m⟩ es ⟨P ln, ⟨next, none⟩ :: rest, k v, m⟩ := by
  obtain ⟨hdrop, hdead⟩ := hready
  have hin : Flow s ⟨ln, ⟨p, none⟩ :: rest, l, m⟩ [] ⟨ln, ⟨entryOf c, none⟩ :: ⟨p, none⟩ :: rest, l.latch c, m⟩ :=
    flow_silent hq hi fun as tr => (h ln _ as tr).1
  have hrun := hcall ln ⟨p, none⟩ rest (l.latch c) m (Locals.latch_latch c l) hdead
  rw [Locals.drop_latch, hdrop] at hrun
  exact (hin.after hrun).before (flow_silent hq hi fun as tr => (h (P ln) _ as tr).2 v)

/-- A call statement that drops the value. -/
theorem flow_call_goto {es : List Event} {P : Drv × Drv → Drv × Drv} {v : Byte} (hq : s.quiet)
    (hi : (s.setLocals l).operationAt p = some i) (hcall : CallFlows s c es P v) (hready : l.readyFor c)
    (h : ∀ u : State, CallsThen i u p c rest next fun _ => u.locals) :
    Flow s ⟨ln, ⟨p, none⟩ :: rest, l, m⟩ es ⟨P ln, ⟨next, none⟩ :: rest, l, m⟩ :=
  flow_call (fun _ => l) hq hi hcall hready fun _ _ _ _ => h _

end

/-! ### The line operations (R90 to R93) -/

section

variable {s : State} (hq : s.quiet)

include hq

theorem pull_flows (L : Line) : CallFlows s (.pull L) (pullEvents s.halfUs.toNat L) (withLine L .pulled) 0 := by
  intro ln g rest l m hl _
  have hi (lb : PullLabel) : (s.setLocals l).operationAt (.pull lb) = some (.pull L) := by
    rw [← hl]
    rfl
  have hdir := flow_drive (ln := ln) (m := m) hq (hi .p0) rfl
    fun _ _ => drivesThen_of_pinSetDir (r := none) (rest := g :: rest) exec_pull_p0
  have hval := flow_drive (ln := withLine L .outUnset ln) (m := m) hq (hi .p1) rfl
    fun _ _ => drivesThen_of_pinSetVal (r := none) (rest := g :: rest) exec_pull_p1
  rw [withLine_withLine] at hval
  exact ((hdir.trans hval).trans (flow_delayHalf hq (hi .p2) fun _ _ => exec_pull_p2)).before
    (flow_return hq (hi .p3) fun _ _ => exec_pull_p3)

theorem release_flows (L : Line) (v : Bit) :
    CallFlows s (.release L) (sampleEvents s.halfUs.toNat L v) (withLine L .released) (ofBit v) := by
  intro ln g rest l m hl _
  have hi (u : Option Bit) (lb : ReleaseLabel) :
      (s.setLocals { l with releaseV := u }).operationAt (.release lb) = some (.release L) := by
    rw [← hl]
    rfl
  have hdir := flow_drive (ln := ln) (m := m) hq (hi l.releaseV .l0) rfl
    fun _ _ => drivesThen_of_pinSetDir (r := none) (rest := g :: rest) exec_release_l0
  have hdelay := hdir.trans (flow_delayHalf hq (hi l.releaseV .l1) fun _ _ => exec_release_l1)
  have hsample := hdelay.trans (flow_sample (k := fun v => { l with releaseV := some v }) hq (hi l.releaseV .l2) v
    fun _ _ => samplesThen_of_pinGetVal (fun v l => { l with releaseV := some v }) exec_release_l2)
  exact hsample.before (flow_return hq (hi (some v) .l3) fun _ _ => exec_release_l3 rfl)

theorem wait_flows (c : Bit) :
    CallFlows s .waitClockReleased (waitEvents s.halfUs.toNat c) (withLine .scl .released) 0 := by
  intro ln g rest l m _ _
  have hdir := flow_drive (l := l) (ln := ln) (m := m) hq (p := .waitClockReleased .w0) rfl rfl
    fun _ _ => drivesThen_of_pinSetDir (r := none) (rest := g :: rest) exec_waitClockReleased_w0
  have hdelay := hdir.trans (flow_delayHalf hq rfl fun _ _ => exec_waitClockReleased_w1)
  have hsample := hdelay.trans (flow_sample (k := fun v => { l with waitV := some v }) hq rfl c
    fun _ _ => samplesThen_of_pinGetVal (fun v l => { l with waitV := some v }) exec_waitClockReleased_w2)
  have hstretch : Flow s ⟨withLine .scl .released ln, ⟨.waitClockReleased .w3, none⟩ :: g :: rest,
      { l with waitV := some c }, m⟩ (if c = 0 then [.delay Config.tStretchUs] else [])
      ⟨withLine .scl .released ln, ⟨.waitClockReleased .w4, none⟩ :: g :: rest, { l with waitV := some c }, m⟩ := by
    rcases BitVec.eq_zero_or_eq_one c with rfl | rfl
    · exact flow_delay hq rfl fun _ _ => delaysThen_of_delay (exec_waitClockReleased_w3_low rfl)
    · exact flow_silent hq rfl fun _ _ => exec_waitClockReleased_w3_high rfl
  exact ((hsample.trans hstretch).trans
    (flow_delayHalf hq rfl fun _ _ => exec_waitClockReleased_w4)).before
    (flow_return hq rfl fun _ _ => exec_waitClockReleased_w5)

theorem idle_flows (v : Bit) :
    CallFlows s .readDataIdle (sampleEvents s.halfUs.toNat .sda v) (withLine .sda .released) (ofBit v) := by
  intro ln g rest l m _ _
  have hdir := flow_drive (l := l) (ln := ln) (m := m) hq (p := .readDataIdle .i0) rfl rfl
    fun _ _ => drivesThen_of_pinSetDir (r := none) (rest := g :: rest) exec_readDataIdle_i0
  have hdelay := hdir.trans (flow_delayHalf hq rfl fun _ _ => exec_readDataIdle_i1)
  have hsample := hdelay.trans (flow_sample (k := fun v => { l with idleV := some v }) hq rfl v
    fun _ _ => samplesThen_of_pinGetVal (fun v l => { l with idleV := some v }) exec_readDataIdle_i2)
  exact hsample.before (flow_return hq rfl fun _ _ => exec_readDataIdle_i3 rfl)

end

/-! ### The bit operations (R100 to R103) -/

section

variable {l : Locals} {c : Instr}

/-- While no line operation runs, each can be called. -/
theorem Locals.linesDead.readyFor (h : l.linesDead) (hc : (opOf c).layer = 0) : l.readyFor c := by
  obtain ⟨hpull, hrelease, hv, hwait, hidle⟩ := h
  cases l
  cases c with
  | pull | release | waitClockReleased | readDataIdle => exact ⟨by simp_all [Locals.drop, opOf], trivial⟩
  | new | write | read | writeRead | start | stop | writeBit | readBit | writeByte | readByte | recover =>
    exact absurd hc (Nat.succ_ne_zero _)

theorem asBit_ofBit (v : Bit) : asBit (ofBit v) = v := by
  rcases BitVec.eq_zero_or_eq_one v with rfl | rfl <;> rfl

variable {s : State} (hq : s.quiet)

include hq

theorem start_flows (c : Bit) :
    CallFlows s .start (startEvents s.halfUs.toNat c) (fun _ => (.pulled, .pulled)) 0 := by
  intro ln g rest l m _ hdead
  have hready {c : Instr} (hc : (opOf c).layer = 0) : { l with startD := some 1 }.readyFor c :=
    Locals.linesDead.readyFor hdead hc
  have h0 := flow_call (ln := ln) (m := m) (fun v => { l with startD := some (asBit v) }) hq rfl (idle_flows hq 1)
    (Locals.linesDead.readyFor hdead rfl) fun _ _ _ _ => start_s0 (rest := g :: rest)
  have h1 := h0.before (flow_silent hq rfl fun _ _ => start_s1_high rfl)
  have h2 := h1.trans (flow_call_goto hq rfl (wait_flows hq c) (hready rfl) fun _ => start_s2)
  have h3 := h2.trans (flow_call_goto hq rfl (pull_flows hq .sda) (hready rfl) fun _ => start_s3)
  have h4 := h3.trans (flow_call_goto hq rfl (pull_flows hq .scl) (hready rfl) fun _ => start_s4)
  exact h4.before (flow_return hq rfl fun _ _ => start_s5)

theorem stop_flows (c : Bit) :
    CallFlows s .stop (stopEvents s.halfUs.toNat c) (fun _ => (.released, .released)) 0 := by
  intro ln g rest l m _ hdead
  have h0 := flow_call_goto (ln := ln) (m := m) hq rfl (wait_flows hq c) (Locals.linesDead.readyFor hdead rfl)
    fun _ => stop_e0 (rest := g :: rest)
  have h1 := h0.trans (flow_call (fun v => { l with stopD := some (asBit v) }) hq rfl (release_flows hq .sda 1)
    (Locals.linesDead.readyFor hdead rfl) fun _ _ _ _ => stop_e1)
  have h2 := h1.before (flow_silent hq rfl fun _ _ => stop_e2_high rfl)
  exact h2.before (flow_return hq rfl fun _ _ => stop_e3)

theorem readBit_flows (u c b : Bit) :
    CallFlows s .readBit (readBitEvents s.halfUs.toNat u c b) (fun _ => (.pulled, .pulled)) (ofBit b) := by
  intro ln g rest l m _ hdead
  have hready {c : Instr} (v : Option Bit) (hc : (opOf c).layer = 0) : { l with readBitB := v }.readyFor c :=
    Locals.linesDead.readyFor hdead hc
  have h0 := flow_call_goto (ln := ln) (m := m) hq rfl (release_flows hq .sda u) (hready l.readBitB rfl)
    fun _ => readBit_b0 (rest := g :: rest)
  have h1 := h0.trans (flow_call_goto hq rfl (wait_flows hq c) (hready _ rfl) fun _ => readBit_b1)
  have h2 := h1.trans (flow_call (fun v => { l with readBitB := some (asBit v) }) hq rfl (idle_flows hq b)
    (hready _ rfl) fun _ _ _ _ => readBit_b2)
  have h3 := h2.trans (flow_call_goto hq rfl (pull_flows hq .scl) (hready _ rfl) fun _ => readBit_b3)
  have h4 := h3.trans (flow_call_goto hq rfl (pull_flows hq .sda) (hready _ rfl) fun _ => readBit_b4)
  exact h4.before (flow_return hq rfl fun _ _ => readBit_b5 (congrArg some (asBit_ofBit b)))

/-- A 1 is sent by releasing the data line, a 0 by pulling it. -/
theorem sendBit_flows (bit u : Bit) :
    ∃ P v, CallFlows s (sendBit bit)
      (if bit = 1 then sampleEvents s.halfUs.toNat .sda u else pullEvents s.halfUs.toNat .sda) P v := by
  rcases BitVec.eq_zero_or_eq_one bit with rfl | rfl
  · exact ⟨_, _, pull_flows hq .sda⟩
  · exact ⟨_, _, release_flows hq .sda u⟩

omit hq in
theorem sendBit_layer (bit : Bit) : (opOf (sendBit bit)).layer = 0 := by
  unfold sendBit
  split <;> rfl

theorem writeBit_flows (bit u c : Bit) :
    CallFlows s (.writeBit bit) (writeBitEvents s.halfUs.toNat bit u c) (fun _ => (.pulled, .pulled)) 0 := by
  intro ln g rest l m hl hdead
  have hi (lb : WriteBitLabel) : (s.setLocals l).operationAt (.writeBit lb) = some (.writeBit bit) := by
    rw [← hl]
    rfl
  have hready {c : Instr} (hc : (opOf c).layer = 0) : l.readyFor c := Locals.linesDead.readyFor hdead hc
  obtain ⟨P, v, hsend⟩ := sendBit_flows hq bit u
  have h0 := flow_call_goto (ln := ln) (m := m) hq (hi .c0) hsend (hready (sendBit_layer bit))
    fun _ => writeBit_c0 (rest := g :: rest)
  have h1 := h0.trans (flow_call_goto hq (hi .c1) (wait_flows hq c) (hready rfl) fun _ => writeBit_c1)
  have h2 := h1.trans (flow_call_goto hq (hi .c2) (pull_flows hq .scl) (hready rfl) fun _ => writeBit_c2)
  have h3 := h2.trans (flow_call_goto hq (hi .c3) (pull_flows hq .sda) (hready rfl) fun _ => writeBit_c3)
  exact h3.before (flow_return hq (hi .c4) fun _ _ => writeBit_c4)

end

end Sys2Proof.Machine

open Sys2Proof Sys2Proof.Machine

/-- Settles O33: the flows of the four line operations, statement after statement. -/
theorem lineOperationsRun : Obligations.LineOperationsRun :=
  ⟨fun L => callRuns_of_callFlows fun _ hq => pull_flows hq L,
    fun L v => callRuns_of_callFlows fun _ hq => release_flows hq L v,
    fun c => callRuns_of_callFlows fun _ hq => wait_flows hq c,
    fun v => callRuns_of_callFlows fun _ hq => idle_flows hq v⟩

/-- Settles O34: each bit operation is its chain of line operations. -/
theorem bitOperationsRun : Obligations.BitOperationsRun :=
  ⟨fun c => callRuns_of_callFlows fun _ hq => start_flows hq c,
    fun c => callRuns_of_callFlows fun _ hq => stop_flows hq c,
    fun u c b => callRuns_of_callFlows fun _ hq => readBit_flows hq u c b,
    fun bit u c => callRuns_of_callFlows fun _ hq => writeBit_flows hq bit u c⟩
end


section
/-! SUPPORT. The byte operations and RECOVER as flows: one induction over the bits of a byte, one over the pulses of a burst
and one over the bursts; and the settlement of O35 and O36. -/

namespace Sys2Proof.Machine

/-! ### Bit indices in wire order (R50) -/

/-- The bit indices from `n` down to 0. -/
def bitsFrom (n : Nat) : List Nat := (List.range (n + 1)).reverse

theorem bitOrder_eq : bitOrder = bitsFrom 7 := rfl

theorem bitsFrom_zero : bitsFrom 0 = [0] := rfl

theorem bitsFrom_succ (n : Nat) : bitsFrom (n + 1) = (n + 1) :: bitsFrom n := by
  simp [bitsFrom, List.range_succ]

theorem bitIndex_succ {n : Nat} (h : n < 7) :
    BitVec.ofNat 3 (n + 1) ≠ 0 ∧ BitVec.ofNat 3 (n + 1) - 1 = BitVec.ofNat 3 n := by
  interval_cases n <;> decide

/-- Bit `n` of a byte, shifted in below the bits above it. -/
theorem shiftIn_bitAt {n : Nat} (h : n < 8) (v : Byte) :
    shiftIn (v >>> (n + 1)) (bitAt v (BitVec.ofNat 3 n)) = v >>> n := by
  revert v
  interval_cases n <;> decide

theorem shiftRight_eight (v : Byte) : v >>> (7 + 1) = 0 := by
  revert v
  decide

/-! ### The byte operations (R110, R111) -/

/-- The registers of the line and bit operations hold no value. -/
def Locals.bitsDead (l : Locals) : Prop :=
  l.pullL = none ∧ l.releaseL = none ∧ l.releaseV = none ∧ l.waitV = none ∧ l.idleV = none ∧
    l.writeBitBit = none ∧ l.readBitB = none

section

variable {l : Locals}

/-- While neither a line nor a bit operation runs, each bit operation can be called. -/
theorem Locals.bitsDead.readyForWrite (h : l.bitsDead) (bit : Bit) : l.readyFor (.writeBit bit) := by
  obtain ⟨hpull, hrelease, hv, hwait, hidle, hbit, -⟩ := h
  cases l
  exact ⟨by simp_all [Locals.drop, opOf], hpull, hrelease, hv, hwait, hidle⟩

theorem Locals.bitsDead.readyForRead (h : l.bitsDead) : l.readyFor .readBit := by
  obtain ⟨hpull, hrelease, hv, hwait, hidle, -, hbit⟩ := h
  cases l
  exact ⟨by simp_all [Locals.drop, opOf], hpull, hrelease, hv, hwait, hidle⟩

variable {s : State} {ln : Drv × Drv} {g : Frame} {rest : List Frame} {m : Memory}

theorem operationAt_writeByte {byte : Byte} (hb : l.writeByteByte = some byte) (n : Option (BitVec 3)) (a : Option Bit)
    (lb : WriteByteLabel) :
    (s.setLocals { l with writeByteI := n, writeByteAck := a }).operationAt (.writeByte lb) = some (.writeByte byte) :=
  congrArg (Option.map Instr.writeByte) hb

theorem operationAt_readByte {sa : Bit} (hsa : l.readByteSendAck = some sa) (x : Option Byte) (n : Option (BitVec 3))
    (lb : ReadByteLabel) :
    (s.setLocals { l with readByteV := x, readByteI := n }).operationAt (.readByte lb) = some (.readByte sa) :=
  congrArg (Option.map Instr.readByte) hsa

variable (hq : s.quiet)

include hq

/-- X0 for one bit index. -/
theorem writeByte_bit_flow {byte : Byte} {n : BitVec 3} (u c : Bit) (hb : l.writeByteByte = some byte)
    (hdead : l.bitsDead) :
    Flow s ⟨ln, ⟨.writeByte .x0, none⟩ :: rest, { l with writeByteI := some n }, m⟩
      (writeBitEvents s.halfUs.toNat (bitAt byte n) u c)
      ⟨(.pulled, .pulled), ⟨.writeByte (if n = 0 then .x1 else .x0), none⟩ :: rest,
        { l with writeByteI := some (if n = 0 then 0 else n - 1) }, m⟩ :=
  flow_call (i := .writeByte byte) (fun _ => { l with writeByteI := some (if n = 0 then 0 else n - 1) }) hq
    (operationAt_writeByte hb (some n) l.writeByteAck .x0) (writeBit_flows hq (bitAt byte n) u c)
    (Locals.bitsDead.readyForWrite (l := { l with writeByteI := some n }) hdead _) fun _ _ _ _ => writeByte_x0 rfl

/-- X0 from bit index `n` down. -/
theorem writeByte_bits_flow {byte : Byte} {n : Nat} (hn : n < 8) (u c : Nat → Bit) (hb : l.writeByteByte = some byte)
    (hdead : l.bitsDead) :
    Flow s ⟨ln, ⟨.writeByte .x0, none⟩ :: rest, { l with writeByteI := some (BitVec.ofNat 3 n) }, m⟩
      ((bitsFrom n).flatMap fun i => writeBitEvents s.halfUs.toNat (bitAt byte (BitVec.ofNat 3 i)) (u i) (c i))
      ⟨(.pulled, .pulled), ⟨.writeByte .x1, none⟩ :: rest, { l with writeByteI := some 0 }, m⟩ := by
  induction n generalizing ln with
  | zero => simpa [bitsFrom_zero] using writeByte_bit_flow (n := 0) hq (u 0) (c 0) hb hdead
  | succ n ih =>
    obtain ⟨hne, hpred⟩ := bitIndex_succ (Nat.lt_of_succ_lt_succ hn)
    have hbit := writeByte_bit_flow (ln := ln) (rest := rest) (m := m) (n := BitVec.ofNat 3 (n + 1)) hq (u (n + 1))
      (c (n + 1)) hb hdead
    rw [if_neg hne, if_neg hne, hpred] at hbit
    rw [bitsFrom_succ, List.flatMap_cons]
    exact hbit.trans (ih (Nat.lt_of_succ_lt hn))

theorem writeByte_flows (byte : Byte) (lv : ByteLevels) (ack : Bit) :
    CallFlows s (.writeByte byte) (writeByteEvents s.halfUs.toNat byte lv ack) (fun _ => (.pulled, .pulled))
      (ofBit ack) := by
  intro ln g rest l m hl hdead
  have hb : l.writeByteByte = some byte := by rw [← hl]; rfl
  have h7 : { l with writeByteI := some (BitVec.ofNat 3 7) } = l := by rw [← hl]; rfl
  have hbits := writeByte_bits_flow (ln := ln) (rest := g :: rest) (m := m)
    (n := 7) hq (by decide) lv.data lv.clock hb hdead
  rw [h7] at hbits
  have hack := flow_call (i := .writeByte byte) (ln := (.pulled, .pulled)) (m := m) (rest := g :: rest)
    (fun v => { l with writeByteI := some 0, writeByteAck := some (asBit v) }) hq
    (operationAt_writeByte hb (some 0) l.writeByteAck .x1) (readBit_flows hq lv.ninthData lv.ninthClock ack)
    (Locals.bitsDead.readyForRead hdead) fun _ _ _ _ => writeByte_x1
  exact (hbits.trans hack).before (flow_return hq (operationAt_writeByte hb _ _ .x2)
    fun _ _ => writeByte_x2 (congrArg some (asBit_ofBit ack)))

/-- Y1 for one bit index. -/
theorem readByte_bit_flow {sa : Bit} {n : BitVec 3} {x : Byte} (u c b : Bit) (hsa : l.readByteSendAck = some sa)
    (hdead : l.bitsDead) :
    Flow s ⟨ln, ⟨.readByte .y1, none⟩ :: rest, { l with readByteV := some x, readByteI := some n }, m⟩
      (readBitEvents s.halfUs.toNat u c b)
      ⟨(.pulled, .pulled), ⟨.readByte (if n = 0 then .y2 else .y1), none⟩ :: rest,
        { l with readByteV := some (shiftIn x b), readByteI := some (if n = 0 then 0 else n - 1) }, m⟩ := by
  have hflow := flow_call (i := .readByte sa) (ln := ln) (m := m) (rest := rest)
    (fun v => { l with
      readByteV := some (shiftIn x (asBit v)), readByteI := some (if n = 0 then 0 else n - 1) }) hq
    (operationAt_readByte hsa (some x) (some n) .y1) (readBit_flows hq u c b)
    (Locals.bitsDead.readyForRead hdead) fun _ _ _ _ => readByte_y1 rfl rfl
  rwa [asBit_ofBit] at hflow

/-- Y1 from bit index `n` down, the bits above already in the register. -/
theorem readByte_bits_flow {sa : Bit} {n : Nat} (hn : n < 8) (v : Byte) (u c : Nat → Bit)
    (hsa : l.readByteSendAck = some sa) (hdead : l.bitsDead) :
    Flow s ⟨ln, ⟨.readByte .y1, none⟩ :: rest,
        { l with readByteV := some (v >>> (n + 1)), readByteI := some (BitVec.ofNat 3 n) }, m⟩
      ((bitsFrom n).flatMap fun i => readBitEvents s.halfUs.toNat (u i) (c i) (bitAt v (BitVec.ofNat 3 i)))
      ⟨(.pulled, .pulled), ⟨.readByte .y2, none⟩ :: rest, { l with readByteV := some v, readByteI := some 0 }, m⟩ := by
  induction n generalizing ln with
  | zero =>
    have hbit := readByte_bit_flow (ln := ln) (rest := rest) (m := m) (n := 0) (x := v >>> (0 + 1)) hq (u 0) (c 0)
      (bitAt v (BitVec.ofNat 3 0)) hsa hdead
    rw [shiftIn_bitAt (n := 0) (by decide), BitVec.ushiftRight_zero] at hbit
    simpa [bitsFrom_zero] using hbit
  | succ n ih =>
    obtain ⟨hne, hpred⟩ := bitIndex_succ (Nat.lt_of_succ_lt_succ hn)
    have hbit := readByte_bit_flow (ln := ln) (rest := rest) (m := m) (n := BitVec.ofNat 3 (n + 1))
      (x := v >>> (n + 1 + 1)) hq (u (n + 1)) (c (n + 1)) (bitAt v (BitVec.ofNat 3 (n + 1))) hsa hdead
    rw [if_neg hne, if_neg hne, hpred, shiftIn_bitAt hn] at hbit
    rw [bitsFrom_succ, List.flatMap_cons]
    exact hbit.trans (ih (Nat.lt_of_succ_lt hn))

theorem readByte_flows (sa : Bit) (v : Byte) (lv : ByteLevels) :
    CallFlows s (.readByte sa) (readByteEvents s.halfUs.toNat sa v lv) (fun _ => (.pulled, .pulled)) v := by
  intro ln g rest l m hl hdead
  have hsa : l.readByteSendAck = some sa := by rw [← hl]; rfl
  have h0 := flow_silent (ln := ln) (m := m) (m' := m)
    (l := l) (l' := { l with readByteV := some 0, readByteI := some 7 })
    hq (operationAt_readByte hsa l.readByteV l.readByteI .y0) fun _ _ => readByte_y0 (r := none) (rest := g :: rest)
  have hbits := readByte_bits_flow (ln := ln) (rest := g :: rest) (m := m)
    (n := 7) hq (by decide) v lv.data lv.clock hsa hdead
  rw [shiftRight_eight] at hbits
  have hninth := flow_call_goto (ln := (.pulled, .pulled)) (m := m) hq (operationAt_readByte hsa (some v) (some 0) .y2)
    (writeBit_flows hq (ninthBit sa) lv.ninthData lv.ninthClock)
      (Locals.bitsDead.readyForWrite (l := { l with readByteV := some v, readByteI := some 0 }) hdead _)
    fun _ => readByte_y2 (rest := g :: rest)
  exact ((h0.after hbits).trans hninth).before
    (flow_return hq (operationAt_readByte hsa (some v) (some 0) .y3) fun _ _ => readByte_y3 rfl)

end

end Sys2Proof.Machine

open Sys2Proof Sys2Proof.Machine

/-- Settles O35: one bit operation for each index from 7 down, then the ninth. -/
theorem byteOperationsRun : Obligations.ByteOperationsRun :=
  ⟨fun byte lv ack => callRuns_of_callFlows fun _ hq => writeByte_flows hq byte lv ack,
    fun sa v lv => callRuns_of_callFlows fun _ hq => readByte_flows hq sa v lv⟩
end


section
/-! SUPPORT. RECOVER as a flow, one induction over the pulses of a burst and one over the bursts; NEW's run; and the
settlement of O36 and O37. -/

namespace Sys2Proof.Machine

/-! ### The counters of RECOVER (R120) -/

/-- The registers with RECOVER's own. -/
def Locals.counting (l : Locals) (b : Option Addr) (n : Option (BitVec 4)) (d : Option Bit) : Locals :=
  { l with recoverBurst := b, recoverPulse := n, recoverD := d }

section

variable {s : State} {r : Option Byte} {rest : List Frame} {j : Nat}

/-- V5, the pulse counter as a number. -/
theorem recover_v5_nat (hj : j < 10) (h : s.locals.recoverPulse = some (BitVec.ofNat 4 j)) :
    Does .recover s (.recover .v5) r rest
      { s with pc := ⟨.recover (if j + 1 < 10 then .v3 else .v6), none⟩ :: rest,
               locals := { s.locals with recoverPulse := some (BitVec.ofNat 4 (j + 1)) } } := by
  have htoNat : (BitVec.ofNat 4 j).toNat = j := by
    rw [BitVec.toNat_ofNat]
    exact Nat.mod_eq_of_lt (by omega)
  have hv5 := recover_v5 (r := r) (rest := rest) h (by omega)
  rw [htoNat] at hv5
  rw [BitVec.ofNat_add]
  exact hv5

/-- V8, the burst counter as a number. -/
theorem recover_v8_nat {d : Bit} (hj : j < 100) (h : s.locals.recoverBurst = some (BitVec.ofNat 7 j))
    (hd : s.locals.recoverD = some d) :
    Does .recover s (.recover .v8) r rest
      { s with pc := ⟨.recover (if d = 0 ∧ j + 1 < 100 then .v2 else .v9), none⟩ :: rest,
               locals := { s.locals with recoverBurst := some (BitVec.ofNat 7 (j + 1)) } } := by
  have htoNat : (BitVec.ofNat 7 j).toNat = j := by
    rw [BitVec.toNat_ofNat]
    exact Nat.mod_eq_of_lt (by omega)
  have hv8 := recover_v8 (r := r) (rest := rest) h hd (by omega)
  rw [htoNat] at hv8
  rw [BitVec.ofNat_add]
  exact hv8

end

/-! ### Pulses and bursts -/

section

variable {s : State} {ln : Drv × Drv} {rest : List Frame} {l : Locals} {m : Memory} {b : Option Addr}
  {n : Option (BitVec 4)} {d : Option Bit} {j k : Nat} (hq : s.quiet) (hdead : l.linesDead)

include hq hdead

/-- One pulse of the clock (V3 to V5). -/
theorem pulse_flow (hj : j < 10) (c : Bit) :
    Flow s ⟨ln, ⟨.recover .v3, none⟩ :: rest, l.counting b (some (BitVec.ofNat 4 j)) d, m⟩
      (pullEvents s.halfUs.toNat .scl ++ sampleEvents s.halfUs.toNat .scl c)
      ⟨(.released, ln.2), ⟨.recover (if j + 1 < 10 then .v3 else .v6), none⟩ :: rest,
        l.counting b (some (BitVec.ofNat 4 (j + 1))) d, m⟩ := by
  have hready {c : Instr} (hc : (opOf c).layer = 0) : (l.counting b (some (BitVec.ofNat 4 j)) d).readyFor c :=
    Locals.linesDead.readyFor hdead hc
  have hpull := flow_call_goto (ln := ln) (m := m) hq rfl (pull_flows hq .scl) (hready rfl)
    fun _ => recover_v3 (rest := rest)
  have hrelease := flow_call_goto (ln := withLine .scl .pulled ln) (m := m) hq rfl (release_flows hq .scl c)
    (hready rfl) fun _ => recover_v4 (rest := rest)
  exact (hpull.trans hrelease).before (flow_silent hq rfl fun _ _ => recover_v5_nat hj rfl)

/-- The first `j` pulses of a burst. -/
theorem pulses_flow (hj : j < 10) (c : Nat → Bit) :
    ∃ x, Flow s ⟨ln, ⟨.recover .v3, none⟩ :: rest, l.counting b (some 0) d, m⟩
      ((List.range j).flatMap fun p => pullEvents s.halfUs.toNat .scl ++ sampleEvents s.halfUs.toNat .scl (c p))
      ⟨(x, ln.2), ⟨.recover .v3, none⟩ :: rest, l.counting b (some (BitVec.ofNat 4 j)) d, m⟩ := by
  induction j with
  | zero => exact ⟨ln.1, Flow.refl _ _⟩
  | succ j ih =>
    obtain ⟨x, hflow⟩ := ih (Nat.lt_of_succ_lt hj)
    have hpulse := pulse_flow (ln := (x, ln.2)) (rest := rest) (m := m) (b := b) (d := d) hq hdead
      (Nat.lt_of_succ_lt hj) (c j)
    rw [if_pos hj] at hpulse
    rw [List.range_succ, List.flatMap_append, List.flatMap_singleton]
    exact ⟨.released, hflow.trans hpulse⟩

/-- A burst, its pause and its check (V2 to V8). -/
theorem burst_flow (hj : j < 100) (c : Nat → Bit) (check : Bit) :
    Flow s ⟨ln, ⟨.recover .v2, none⟩ :: rest, l.counting (some (BitVec.ofNat 7 j)) n d, m⟩
      (burstEvents s.halfUs.toNat c check)
      ⟨(.released, .released), ⟨.recover (if check = 0 ∧ j + 1 < 100 then .v2 else .v9), none⟩ :: rest,
        l.counting (some (BitVec.ofNat 7 (j + 1))) (some 10) (some check), m⟩ := by
  have hv2 := flow_silent (ln := ln) (m := m) (m' := m) (l := l.counting (some (BitVec.ofNat 7 j)) n d)
    (l' := l.counting (some (BitVec.ofNat 7 j)) (some 0) d) hq rfl fun _ _ => recover_v2 (r := none) (rest := rest)
  obtain ⟨x, hnine⟩ := pulses_flow (ln := ln) (rest := rest) (m := m) (b := some (BitVec.ofNat 7 j)) (d := d) (j := 9)
    hq hdead (by decide) c
  have htenth := pulse_flow (ln := (x, ln.2)) (rest := rest) (m := m) (b := some (BitVec.ofNat 7 j)) (d := d) (j := 9)
    hq hdead (by decide) (c 9)
  have hpulses := hnine.trans htenth
  rw [← List.flatMap_singleton (fun p => pullEvents s.halfUs.toNat .scl ++ sampleEvents s.halfUs.toNat .scl (c p)) 9,
    ← List.flatMap_append, ← List.range_succ] at hpulses
  have hpause := (hv2.after hpulses).trans (flow_delay hq rfl fun _ _ => recover_v6)
  have hcheck := hpause.trans (flow_call
    (fun v => l.counting (some (BitVec.ofNat 7 j)) (some 10) (some (asBit v))) hq rfl (idle_flows hq check)
    (Locals.linesDead.readyFor hdead rfl) fun _ _ _ _ => recover_v7)
  rw [asBit_ofBit] at hcheck
  exact hcheck.before (flow_silent hq rfl fun _ _ => recover_v8_nat hj rfl rfl)

/-- The first `j` bursts, every check reading 0. -/
theorem bursts_flow (hj : j < 100) (c : Nat → Nat → Bit) :
    ∃ x n d, Flow s ⟨ln, ⟨.recover .v2, none⟩ :: rest, l.counting (some 0) l.recoverPulse l.recoverD, m⟩
      ((List.range j).flatMap fun i => burstEvents s.halfUs.toNat (c i) 0)
      ⟨x, ⟨.recover .v2, none⟩ :: rest, l.counting (some (BitVec.ofNat 7 j)) n d, m⟩ := by
  induction j with
  | zero => exact ⟨ln, _, _, Flow.refl _ _⟩
  | succ j ih =>
    obtain ⟨x, n, d, hflow⟩ := ih (Nat.lt_of_succ_lt hj)
    have hburst := burst_flow (ln := x) (rest := rest) (m := m) (n := n) (d := d)
      hq hdead (Nat.lt_of_succ_lt hj) (c j) 0
    rw [if_pos ⟨rfl, hj⟩] at hburst
    rw [List.range_succ, List.flatMap_append, List.flatMap_singleton]
    exact ⟨_, _, _, hflow.trans hburst⟩

/-- `k + 1` bursts, of which the last check alone may read 1. -/
theorem allBursts_flow (hk : k < 100) (c : Nat → Nat → Bit) {last : Bit} (hlast : last = 1 ∨ k + 1 = 100) :
    Flow s ⟨ln, ⟨.recover .v2, none⟩ :: rest, l.counting (some 0) l.recoverPulse l.recoverD, m⟩
      ((List.range (k + 1)).flatMap fun j => burstEvents s.halfUs.toNat (c j) (if j + 1 = k + 1 then last else 0))
      ⟨(.released, .released), ⟨.recover .v9, none⟩ :: rest,
        l.counting (some (BitVec.ofNat 7 (k + 1))) (some 10) (some last), m⟩ := by
  obtain ⟨x, n, d, hflow⟩ := bursts_flow (ln := ln) (rest := rest) (m := m) hq hdead hk c
  have hburst := burst_flow (ln := x) (rest := rest) (m := m) (n := n) (d := d) hq hdead hk (c k) last
  have hstop : ¬(last = 0 ∧ k + 1 < 100) := by
    rintro ⟨rfl, hlt⟩
    rcases hlast with h | h
    · exact absurd h (by decide)
    · omega
  rw [if_neg hstop] at hburst
  have hfirst : ((List.range k).flatMap fun j => burstEvents s.halfUs.toNat (c j) (if j + 1 = k + 1 then last else 0)) =
      (List.range k).flatMap fun j => burstEvents s.halfUs.toNat (c j) 0 := by
    refine List.flatMap_congr fun j hj => ?_
    rw [if_neg (by have := List.mem_range.mp hj; omega)]
  rw [List.range_succ, List.flatMap_append, hfirst, List.flatMap_singleton, if_pos rfl]
  exact hflow.trans hburst

/-- RECOVER up to V11 (R120). -/
theorem recover_flow (hk : k < 100) (v0 : Bit) (c : Nat → Nat → Bit) {last : Bit} (hlast : last = 1 ∨ k + 1 = 100) :
    Flow s ⟨ln, ⟨.recover .v0, none⟩ :: rest, l, m⟩ (recoverEvents s.halfUs.toNat v0 c (k + 1) last)
      ⟨(.pulled, .pulled), ⟨.recover .v11, none⟩ :: rest,
        l.counting (some (BitVec.ofNat 7 (k + 1))) (some 10) (some last), m⟩ := by
  have h0 := flow_call_goto (ln := ln) (m := m) hq rfl (release_flows hq .sda v0) (hdead.readyFor rfl)
    fun _ => recover_v0 (rest := rest)
  have h1 := h0.before (flow_silent (l' := l.counting (some 0) l.recoverPulse l.recoverD) (m' := m) hq rfl
    fun _ _ => recover_v1)
  have hbursts := h1.trans (allBursts_flow (rest := rest) (m := m) hq hdead hk c hlast)
  have h9 := hbursts.trans (flow_call_goto hq rfl (pull_flows hq .scl) (Locals.linesDead.readyFor hdead rfl)
    fun _ => recover_v9)
  exact h9.trans (flow_call_goto hq rfl (pull_flows hq .sda) (Locals.linesDead.readyFor hdead rfl) fun _ => recover_v10)

end

/-! ### How many events RECOVER issues (R121) -/

theorem burstEvents_length (h : Nat) (c : Nat → Bit) (check : Bit) : (burstEvents h c check).length = 64 := by
  simp [burstEvents, pullEvents, sampleEvents, Config.pulsesPerBurst, List.length_flatMap]

/-- Clock pulls, one each pulse. -/
theorem burstEvents_pulls (h : Nat) (c : Nat → Bit) (check : Bit) :
    (burstEvents h c check).countP (fun e => e = .setDir .scl .output .ok) = 10 := by
  simp [burstEvents, pullEvents, sampleEvents, Config.pulsesPerBurst, List.countP_flatMap, Function.comp_def]

theorem recoverEvents_length (h : Nat) (v0 : Bit) (c : Nat → Nat → Bit) (k : Nat) (last : Bit) :
    (recoverEvents h v0 c k last).length = 9 + 64 * k := by
  simp only [recoverEvents, List.length_append, List.length_flatMap, burstEvents_length, List.map_const',
    List.length_range, List.sum_replicate, sampleEvents, pullEvents, List.length_cons, List.length_nil, smul_eq_mul]
  omega

theorem recoverEvents_pulls (h : Nat) (v0 : Bit) (c : Nat → Nat → Bit) (k : Nat) (last : Bit) :
    (recoverEvents h v0 c k last).countP (fun e => e = .setDir .scl .output .ok) = 10 * k + 1 := by
  simp [recoverEvents, List.countP_flatMap, Function.comp_def, burstEvents_pulls, sampleEvents, pullEvents]
  omega

/-! ### NEW (R130) -/

section

variable {s : State} {ln : Drv × Drv} {l : Locals} {m : Memory}

/-- N0 to N2: FREQ passes the zero test and both exports are answered ok, at any level. -/
theorem new_exports (hq : s.quiet) (hf : s.freq ≠ 0) (a b : Bit) (as : List PinAnswer) (tr : List Event) :
    Runs (s.at ⟨ln, [⟨.new .n0, none⟩], l, m⟩ (.ok a :: .ok b :: as) tr)
      (s.at ⟨(.unknown, .unknown), [⟨.new .n3, none⟩], l, m⟩ as ([.claim .sda .ok, .claim .scl .ok] ++ tr)) := by
  have hscl (u : State) := (newStatements u none []).2.2.1
  have hsda (u : State) := (newStatements u none []).2.2.2.2.1
  exact Runs.of_statement hq rfl (new_n0_positive hf) <|
    Runs.of_statement (ln := ln) (as := .ok a :: .ok b :: as) hq rfl (hscl _ a rfl) <|
    Runs.of_statement (ln := (.unknown, ln.2)) (as := .ok b :: as)
      (tr := .claim .scl .ok :: tr) hq rfl (hsda _ b rfl) <|
    Runs.refl _

/-- N3 and N4: HALF_US, CONFIGURED and the end of the command. -/
theorem new_configures (hq : s.quiet) (hpc : s.pc = [⟨.new .n3, none⟩]) (hf : s.freq ≠ 0) :
    Runs s { s with
      halfUs := BitVec.ofNat 32 (500000 / s.freq.toNat), status := 1, result := 1, pc := [], locals := Locals.dead
      adr := none, wl := none, rl := none, responses := .ok :: s.responses } := by
  have hquiet : State.quiet { s with
      halfUs := halfPeriod s.freq, status := statusWord true s.busy, pc := [⟨.new .n4, none⟩] } :=
    State.quiet_congr (s := s) rfl (statusWord_bit1 _ _) hq
  refine Runs.statement hq hpc rfl (new_n3 hpc) (Runs.statement hquiet rfl rfl (new_n4 (r := none) rfl) ?_)
  rw [State.ret_bottom rfl, halfPeriod_of_ne_zero hf]
  have hstatus : statusWord ((statusWord true s.busy).getLsbD 0) false = 1 := by rw [statusWord_bit0]; rfl
  simp only [State.endCommand, State.toIdle, State.setBusy, State.configured, hstatus]
  exact Runs.refl _

end

end Sys2Proof.Machine

open Sys2Proof Sys2Proof.Machine

/-- Settles O36: `k` bursts of ten pulses, then both lines pulled. -/
theorem recoverRuns : Obligations.RecoverRuns := by
  intro s rest as v0 last clock k hk1 hk100 hlast hq hpc hdead hans
  obtain ⟨k, rfl⟩ : ∃ j, k = j + 1 := ⟨k - 1, by omega⟩
  refine ⟨?_, recoverEvents_length _ _ _ _ _, recoverEvents_pulls _ _ _ _ _⟩
  have hrun := recover_flow (ln := s.lines) (rest := rest) (l := s.locals)
    (m := s.rbuf) hq hdead (by omega) v0 clock hlast
    as s.trace
  rwa [← hpc, ← hans] at hrun

/-- Settles O37: the two exports, then the division by the positive frequency. -/
theorem newRuns : Obligations.NewRuns := by
  intro s as a b hq hpc hf hans
  have hexports := new_exports (ln := s.lines) (l := s.locals) (m := s.rbuf) hq hf a b as s.trace
  rw [← hpc, ← hans] at hexports
  exact hexports.trans (new_configures (State.at_quiet hq _ _ _) rfl hf)
end


section
/-! SUPPORT. WRITE, READ and WRITE_READ as flows from acceptance to the end (R131 to R133): one induction over the bytes of
a write phase and one over those of a read phase; and the settlement of O38 to O40. -/

namespace Sys2Proof.Machine

/-! ### The registers of the transaction commands -/

/-- The registers a transaction command alone has written. -/
def Locals.transfer (n : Option Nat) (x : Option Byte) (a : Option Bit) : Locals :=
  { Locals.dead with idx := n, x := x, a := a }

section

variable {n : Option Nat} {x : Option Byte} {a : Option Bit}

theorem Locals.transfer_readyForStart : (Locals.transfer n x a).readyFor .start := ⟨rfl, rfl, rfl, rfl, rfl, rfl⟩

theorem Locals.transfer_readyForStop : (Locals.transfer n x a).readyFor .stop := ⟨rfl, rfl, rfl, rfl, rfl, rfl⟩

theorem Locals.transfer_readyForWrite (v : Byte) : (Locals.transfer n x a).readyFor (.writeByte v) :=
  ⟨rfl, rfl, rfl, rfl, rfl, rfl, rfl, rfl⟩

theorem Locals.transfer_readyForRead (sa : Bit) : (Locals.transfer n x a).readyFor (.readByte sa) :=
  ⟨rfl, rfl, rfl, rfl, rfl, rfl, rfl, rfl⟩

end

/-! ### The phases of a transaction -/

section

variable {s : State} {i : Instr} {here next : Pos} {rest : List Frame} {ln : Drv × Drv} {m : Memory} {n : Option Nat}
  {x : Option Byte} {a : Option Bit} {j len : Nat} (hq : s.quiet)
  (hi : ∀ l, (s.setLocals l).operationAt here = some i)

include hq hi

theorem start_phase (c : Bit)
    (h : ∀ u : State, CallsThen i u here .start rest next fun _ => u.locals) :
    Flow s ⟨ln, ⟨here, none⟩ :: rest, Locals.transfer n x a, m⟩ (startEvents s.halfUs.toNat c)
      ⟨(.pulled, .pulled), ⟨next, none⟩ :: rest, Locals.transfer n x a, m⟩ :=
  flow_call_goto hq (hi _) (start_flows hq c) Locals.transfer_readyForStart h

theorem stop_phase (c : Bit)
    (h : ∀ u : State, CallsThen i u here .stop rest next fun _ => u.locals) :
    Flow s ⟨ln, ⟨here, none⟩ :: rest, Locals.transfer n x a, m⟩ (stopEvents s.halfUs.toNat c)
      ⟨(.released, .released), ⟨next, none⟩ :: rest, Locals.transfer n x a, m⟩ :=
  flow_call_goto hq (hi _) (stop_flows hq c) Locals.transfer_readyForStop h

theorem address_phase (adr : Addr) (rw : Bit) (lv : ByteLevels) (ack : Bit)
    (h : ∀ u : State, SendsAddress i u here rest adr rw next) :
    Flow s ⟨ln, ⟨here, none⟩ :: rest, Locals.transfer n x a, m⟩ (writeByteEvents s.halfUs.toNat (adr ++ rw) lv ack)
      ⟨(.pulled, .pulled), ⟨next, none⟩ :: rest, Locals.transfer (some 0) x (some ack), m⟩ := by
  have hflow := flow_call (ln := ln) (m := m) (l := Locals.transfer n x a)
    (fun v => Locals.transfer (some 0) x (some (asBit v))) hq (hi _) (writeByte_flows hq (adr ++ rw) lv ack)
    (Locals.transfer_readyForWrite _) fun _ _ _ _ => h _
  rwa [asBit_ofBit] at hflow

/-- One byte of a write phase. -/
theorem send_flow (hwl : s.wl = some len) (hlen : len ≤ Config.bufMax) (hj : j < len) {v : Byte}
    (hv : v = Memory.read .wbuf s.wbuf j) (lv : ByteLevels) (ack : Bit)
    (h : ∀ u : State, SendsFrom i u here next rest) :
    Flow s ⟨ln, ⟨here, none⟩ :: rest, Locals.transfer (some j) x a, m⟩ (writeByteEvents s.halfUs.toNat v lv ack)
      ⟨(.pulled, .pulled), ⟨here, none⟩ :: rest, Locals.transfer (some (j + 1)) (some v) (some ack), m⟩ := by
  subst hv
  have hcall := flow_silent (ln := ln) (m := m) (m' := m) (l := Locals.transfer (some j) x a)
    (l' := (Locals.transfer (some j) (some (Memory.read .wbuf s.wbuf j)) a).latch
      (.writeByte (Memory.read .wbuf s.wbuf j))) hq (hi _)
    fun as tr => (h (s.at _ as tr) j len rfl hwl hlen).1 hj
  have hrun := writeByte_flows hq (Memory.read .wbuf s.wbuf j) lv ack ln ⟨here, none⟩ rest
    ((Locals.transfer (some j) (some (Memory.read .wbuf s.wbuf j)) a).latch (.writeByte (Memory.read .wbuf s.wbuf j))) m
    rfl (Locals.transfer_readyForWrite _).2
  have hback := flow_silent (ln := (.pulled, .pulled)) (m := m) (m' := m)
    (l := Locals.transfer (some j) (some (Memory.read .wbuf s.wbuf j)) a)
    (l' := Locals.transfer (some (j + 1)) (some (Memory.read .wbuf s.wbuf j)) (some (asBit (ofBit ack)))) hq (hi _)
    fun as tr => (h (s.at _ as tr) j len rfl hwl hlen).2.2 (ofBit ack)
  rw [asBit_ofBit] at hback
  exact (hcall.after hrun).before hback

/-- A write phase from byte `j` on (R131, A2). -/
theorem send_phase (hwl : s.wl = some len) (hlen : len ≤ Config.bufMax) (lv : Nat → ByteLevels) (ack : Nat → Bit)
    (h : ∀ u : State, SendsFrom i u here next rest) (bytes : List Byte) (hj : j + bytes.length = len)
    (hbytes : ∀ k (hk : k < bytes.length), bytes[k] = Memory.read .wbuf s.wbuf (j + k)) :
    ∃ n' x' a', Flow s ⟨(.pulled, .pulled), ⟨here, none⟩ :: rest, Locals.transfer (some j) x a, m⟩
      ((bytes.zipIdx j).flatMap fun p => writeByteEvents s.halfUs.toNat p.1 (lv p.2) (ack p.2))
      ⟨(.pulled, .pulled), ⟨next, none⟩ :: rest, Locals.transfer n' x' a', m⟩ := by
  induction bytes generalizing j x a with
  | nil => exact ⟨_, _, _, flow_silent hq (hi _) fun as tr => (h (s.at _ as tr) j len rfl hwl hlen).2.1
    (by simp at hj; omega)⟩
  | cons v vs ih =>
    rw [List.length_cons] at hj
    have hv : v = Memory.read .wbuf s.wbuf j := hbytes 0 (Nat.succ_pos _)
    obtain ⟨n', x', a', hrest⟩ := ih (j := j + 1) (x := some v) (a := some (ack j)) (by omega) fun k hk => by
      simpa [Nat.add_assoc, Nat.add_comm 1 k] using hbytes (k + 1) (Nat.succ_lt_succ hk)
    rw [List.zipIdx_cons, List.flatMap_cons]
    exact ⟨n', x', a', (send_flow hq hi hwl hlen (by omega) hv (lv j) (ack j) h).trans hrest⟩

/-- One byte of a read phase. -/
theorem receive_flow (hrl : s.rl = some len) (hlen : len ≤ Config.bufMax) (hj : j < len) (v : Byte) (lv : ByteLevels)
    (h : ∀ u : State, ReceivesFrom i u here next rest) :
    Flow s ⟨ln, ⟨here, none⟩ :: rest, Locals.transfer (some j) x a, m⟩
      (readByteEvents s.halfUs.toNat (if j + 1 = len then 0 else 1) v lv)
      ⟨(.pulled, .pulled), ⟨here, none⟩ :: rest, Locals.transfer (some (j + 1)) (some v) a,
        Memory.write .rbuf m j v⟩ := by
  have hlast : (if j = len - 1 then 0 else 1 : Bit) = if j + 1 = len then 0 else 1 := if_congr (by omega) rfl rfl
  have hcall := flow_silent (ln := ln) (m := m) (m' := m) (l := Locals.transfer (some j) x a)
    (l' := (Locals.transfer (some j) x a).latch (.readByte (if j = len - 1 then 0 else 1))) hq (hi _)
    fun as tr => (h (s.at _ as tr) j len rfl hrl hlen).1 hj
  rw [hlast] at hcall
  have hrun := readByte_flows hq (if j + 1 = len then 0 else 1) v lv ln ⟨here, none⟩ rest
    ((Locals.transfer (some j) x a).latch (.readByte (if j + 1 = len then 0 else 1))) m rfl
    (Locals.transfer_readyForRead _).2
  have hstore := flow_silent (ln := (.pulled, .pulled)) (m := m) (m' := Memory.write .rbuf m j v)
    (l := Locals.transfer (some j) x a) (l' := Locals.transfer (some (j + 1)) (some v) a) hq (hi _)
    fun as tr => (h (s.at _ as tr) j len rfl hrl hlen).2.2 hj v
  exact (hcall.after hrun).before hstore

end

/-! #### The bytes received -/

/-- RBUF after bytes were stored from index `j` on (R54). -/
def Memory.store (m : Memory) (j : Nat) : List Byte → Memory
  | [] => m
  | v :: vs => Memory.store (Memory.write .rbuf m j v) (j + 1) vs

theorem Memory.read_store_outside {i j : Nat} {bytes : List Byte} (h : i < j ∨ j + bytes.length ≤ i) (m : Memory) :
    Memory.read .rbuf (m.store j bytes) i = Memory.read .rbuf m i := by
  induction bytes generalizing m j with
  | nil => rfl
  | cons v vs ih =>
    rw [List.length_cons] at h
    rw [Memory.store, ih (by omega), Memory.read_write_other _ _ _ (by omega)]

theorem Memory.read_store_inside {i j : Nat} {bytes : List Byte} (h : i < bytes.length) (m : Memory) :
    Memory.read .rbuf (m.store j bytes) (j + i) = bytes[i] := by
  induction bytes generalizing m i j with
  | nil => exact absurd h (Nat.not_lt_zero _)
  | cons v vs ih =>
    rw [Memory.store]
    cases i with
    | zero => rw [Memory.read_store_outside (by omega)]; exact Memory.read_write_self _ _ _ _
    | succ i =>
      rw [show j + (i + 1) = j + 1 + i by omega, ih (Nat.lt_of_succ_lt_succ h)]
      rfl

section

variable {s : State} {i : Instr} {here next : Pos} {rest : List Frame} {m : Memory} {x : Option Byte} {a : Option Bit}
  {j len : Nat} (hq : s.quiet) (hi : ∀ l, (s.setLocals l).operationAt here = some i)

include hq hi

/-- A read phase from byte `j` on (R132, A2). -/
theorem receive_phase (hrl : s.rl = some len) (hlen : len ≤ Config.bufMax) (lv : Nat → ByteLevels)
    (h : ∀ u : State, ReceivesFrom i u here next rest) (bytes : List Byte) (hj : j + bytes.length = len) :
    ∃ n' x' a', Flow s ⟨(.pulled, .pulled), ⟨here, none⟩ :: rest, Locals.transfer (some j) x a, m⟩
      ((bytes.zipIdx j).flatMap fun p =>
        readByteEvents s.halfUs.toNat (if p.2 + 1 = len then 0 else 1) p.1 (lv p.2))
      ⟨(.pulled, .pulled), ⟨next, none⟩ :: rest, Locals.transfer n' x' a', m.store j bytes⟩ := by
  induction bytes generalizing j x m with
  | nil => exact ⟨_, _, _, flow_silent hq (hi _) fun as tr => (h (s.at _ as tr) j len rfl hrl hlen).2.1
    (by simp at hj; omega)⟩
  | cons v vs ih =>
    rw [List.length_cons] at hj
    obtain ⟨n', x', a', hrest⟩ := ih (j := j + 1) (x := some v) (m := Memory.write .rbuf m j v) (by omega)
    rw [List.zipIdx_cons, List.flatMap_cons]
    exact ⟨n', x', a', (receive_flow hq hi hrl hlen (by omega) v (lv j) h).trans hrest⟩

end

/-! ### Whole transactions -/

section

variable {s : State} {adr : Addr} {b : BusLevels} {m : Memory} (hq : s.quiet) (hadr : s.adr = some adr)

include hq

/-- A transaction that flows from its first label to its return ends with OK (R137). -/
theorem transaction_ends {i : Instr} {p q : Pos} {as : List PinAnswer} {es : List Event} {ln : Drv × Drv} {l : Locals}
    (hpc : s.pc = [⟨p, none⟩]) (hans : s.answers = answersFor es ++ as)
    (hflow : Flow s ⟨s.lines, [⟨p, none⟩], s.locals, s.rbuf⟩ es ⟨ln, [⟨q, none⟩], l, m⟩)
    (hi : (s.setLocals l).operationAt q = some i) (h : ∀ u : State, Does i u q none [] (u.ret noValue)) :
    Runs s { (s.endedOk es as ln) with rbuf := m } := by
  have hrun := hflow as s.trace
  rw [← hpc, ← hans] at hrun
  exact hrun.trans (Runs.of_statement hq hi (h _) (Runs.refl _))

include hadr

theorem write_flow {bytes : List Byte} (hwl : s.wl = some bytes.length) (hlen : bytes.length ≤ Config.bufMax)
    (hbytes : bytes = (List.range bytes.length).map (Memory.read .wbuf s.wbuf)) :
    ∃ n x a, Flow s ⟨s.lines, [⟨.write .a0, none⟩], Locals.dead, m⟩ (writeEvents s.halfUs.toNat adr bytes b)
      ⟨(.released, .released), [⟨.write .a4, none⟩], Locals.transfer n x a, m⟩ := by
  have hi (lb : TransferLabel) (l : Locals) : (s.setLocals l).operationAt (.write lb) = some (.write adr) :=
    congrArg (Option.map Instr.write) hadr
  have hstart := start_phase (ln := s.lines) (n := none) (x := none) (a := none) (m := m) hq (hi .a0) b.start1
    fun _ => write_a0 (rest := [])
  have haddress := hstart.trans (address_phase hq (hi .a1) adr 0 b.address1 b.addressAck1 fun _ => write_a1)
  obtain ⟨n, x, a, hsend⟩ := send_phase (m := m) (x := none) (a := some b.addressAck1)
    (j := 0) hq (hi .a2) hwl hlen b.sent
    b.sentAck (fun _ => write_a2 (rest := [])) bytes (Nat.zero_add _) fun k hk => by
      simp only [List.getElem_of_eq hbytes hk, List.getElem_map, List.getElem_range, Nat.zero_add]
  exact ⟨n, x, a, (haddress.trans hsend).trans (stop_phase hq (hi .a3) b.stop fun _ => write_a3)⟩

theorem read_flow {bytes : List Byte} (hrl : s.rl = some bytes.length) (hlen : bytes.length ≤ Config.bufMax) :
    ∃ n x a, Flow s ⟨s.lines, [⟨.read .a0, none⟩], Locals.dead, m⟩ (readEvents s.halfUs.toNat adr bytes b)
      ⟨(.released, .released), [⟨.read .a4, none⟩], Locals.transfer n x a, m.store 0 bytes⟩ := by
  have hi (lb : TransferLabel) (l : Locals) : (s.setLocals l).operationAt (.read lb) = some (.read adr) :=
    congrArg (Option.map Instr.read) hadr
  have hstart := start_phase (ln := s.lines) (n := none) (x := none) (a := none) (m := m) hq (hi .a0) b.start1
    fun _ => read_a0 (rest := [])
  have haddress := hstart.trans (address_phase hq (hi .a1) adr 1 b.address1 b.addressAck1 fun _ => read_a1)
  obtain ⟨n, x, a, hreceive⟩ := receive_phase (m := m) (x := none) (a := some b.addressAck1)
    (j := 0) hq (hi .a2) hrl hlen
    b.received (fun _ => read_a2 (rest := [])) bytes (Nat.zero_add _)
  exact ⟨n, x, a, (haddress.trans hreceive).trans (stop_phase hq (hi .a3) b.stop fun _ => read_a3)⟩

theorem writeRead_flow {out inn : List Byte} (hwl : s.wl = some out.length) (hout : out.length ≤ Config.bufMax)
    (hrl : s.rl = some inn.length) (hinn : inn.length ≤ Config.bufMax)
    (hbytes : out = (List.range out.length).map (Memory.read .wbuf s.wbuf)) :
    ∃ n x a, Flow s ⟨s.lines, [⟨.writeRead .a0, none⟩], Locals.dead, m⟩
      (writeReadEvents s.halfUs.toNat adr out inn b)
      ⟨(.released, .released), [⟨.writeRead .a7, none⟩], Locals.transfer n x a, m.store 0 inn⟩ := by
  have hi (lb : CombinedLabel) (l : Locals) : (s.setLocals l).operationAt (.writeRead lb) = some (.writeRead adr) :=
    congrArg (Option.map Instr.writeRead) hadr
  have hstart := start_phase (ln := s.lines) (n := none) (x := none) (a := none) (m := m) hq (hi .a0) b.start1
    fun _ => writeRead_a0 (rest := [])
  have haddress := hstart.trans (address_phase hq (hi .a1) adr 0 b.address1 b.addressAck1 fun _ => writeRead_a1)
  obtain ⟨n, x, a, hsend⟩ := send_phase (m := m) (x := none) (a := some b.addressAck1)
    (j := 0) hq (hi .a2) hwl hout b.sent
    b.sentAck (fun _ => writeRead_a2 (rest := [])) out (Nat.zero_add _) fun k hk => by
      simp only [List.getElem_of_eq hbytes hk, List.getElem_map, List.getElem_range, Nat.zero_add]
  have hrestart := (haddress.trans hsend).trans (start_phase hq (hi .a3) b.start2 fun _ => writeRead_a3)
  have hagain := hrestart.trans (address_phase hq (hi .a4) adr 1 b.address2 b.addressAck2 fun _ => writeRead_a4)
  obtain ⟨n', x', a', hreceive⟩ := receive_phase (m := m) (x := x) (a := some b.addressAck2)
    (j := 0) hq (hi .a5) hrl hinn
    b.received (fun _ => writeRead_a5 (rest := [])) inn (Nat.zero_add _)
  exact ⟨n', x', a', (hagain.trans hreceive).trans (stop_phase hq (hi .a6) b.stop fun _ => writeRead_a6)⟩

end

theorem write_runs {s : State} {adr : Addr} {b : BusLevels} {as : List PinAnswer} {bytes : List Byte} (hq : s.quiet)
    (hpc : s.pc = [⟨.write .a0, none⟩]) (hadr : s.adr = some adr) (hwl : s.wl = some bytes.length)
    (hlen : bytes.length ≤ Config.bufMax) (hfresh : s.locals = Locals.dead)
    (hbytes : bytes = (List.range bytes.length).map (Memory.read .wbuf s.wbuf))
    (hans : s.answers = answersFor (writeEvents s.halfUs.toNat adr bytes b) ++ as) :
    Runs s (s.endedOk (writeEvents s.halfUs.toNat adr bytes b) as (.released, .released)) := by
  obtain ⟨n, x, a, hflow⟩ := write_flow (b := b) (m := s.rbuf) hq hadr hwl hlen hbytes
  rw [← hfresh] at hflow
  exact transaction_ends hq hpc hans hflow (congrArg (Option.map Instr.write) hadr) fun _ => write_a4

theorem read_runs {s : State} {adr : Addr} {b : BusLevels} {as : List PinAnswer} {bytes : List Byte} (hq : s.quiet)
    (hpc : s.pc = [⟨.read .a0, none⟩]) (hadr : s.adr = some adr) (hrl : s.rl = some bytes.length)
    (hlen : bytes.length ≤ Config.bufMax) (hfresh : s.locals = Locals.dead)
    (hans : s.answers = answersFor (readEvents s.halfUs.toNat adr bytes b) ++ as) :
    Runs s { (s.endedOk (readEvents s.halfUs.toNat adr bytes b) as (.released, .released)) with
      rbuf := s.rbuf.store 0 bytes } := by
  obtain ⟨n, x, a, hflow⟩ := read_flow (b := b) (m := s.rbuf) hq hadr hrl hlen
  rw [← hfresh] at hflow
  exact transaction_ends hq hpc hans hflow (congrArg (Option.map Instr.read) hadr) fun _ => read_a4

theorem writeRead_runs {s : State} {adr : Addr} {b : BusLevels} {as : List PinAnswer} {out inn : List Byte}
    (hq : s.quiet) (hpc : s.pc = [⟨.writeRead .a0, none⟩]) (hadr : s.adr = some adr) (hwl : s.wl = some out.length)
    (hout : out.length ≤ Config.bufMax) (hrl : s.rl = some inn.length) (hinn : inn.length ≤ Config.bufMax)
    (hfresh : s.locals = Locals.dead) (hbytes : out = (List.range out.length).map (Memory.read .wbuf s.wbuf))
    (hans : s.answers = answersFor (writeReadEvents s.halfUs.toNat adr out inn b) ++ as) :
    Runs s { (s.endedOk (writeReadEvents s.halfUs.toNat adr out inn b) as (.released, .released)) with
      rbuf := s.rbuf.store 0 inn } := by
  obtain ⟨n, x, a, hflow⟩ := writeRead_flow (b := b) (m := s.rbuf) hq hadr hwl hout hrl hinn hbytes
  rw [← hfresh] at hflow
  exact transaction_ends hq hpc hans hflow (congrArg (Option.map Instr.writeRead) hadr) fun _ => writeRead_a7

/-- RBUF holds the bytes stored from index 0 on and every other byte reads as before. -/
theorem Memory.store_reads (m : Memory) (bytes : List Byte) :
    (∀ (i : Nat) (h : i < bytes.length), Memory.read .rbuf (m.store 0 bytes) i = bytes[i]) ∧
      ∀ i, bytes.length ≤ i → Memory.read .rbuf (m.store 0 bytes) i = Memory.read .rbuf m i := by
  refine ⟨fun i h => ?_, fun i h => Memory.read_store_outside (by omega) m⟩
  have := Memory.read_store_inside (j := 0) h m
  rwa [Nat.zero_add] at this

end Sys2Proof.Machine

open Sys2Proof Sys2Proof.Machine

/-- Settles O38: START, the address byte, one induction over the bytes of WBUF, STOP. -/
theorem writeRuns : Obligations.WriteRuns := by
  intro s adr n b as bytes hq hpc hadr hwl hlen hfresh hbytes hans
  obtain rfl : n = bytes.length := by simp [hbytes]
  exact write_runs hq hpc hadr hwl hlen hfresh hbytes hans

/-- Settles O39: START, the address byte, one induction over the bytes received, STOP. -/
theorem readRuns : Obligations.ReadRuns := fun s _ _ _ bytes hq hpc hadr hrl hlen hfresh hans =>
  ⟨_, read_runs hq hpc hadr hrl hlen hfresh hans, Memory.store_reads s.rbuf bytes⟩

/-- Settles O40: the phases of WRITE and READ with the repeated START between. -/
theorem writeReadRuns : Obligations.WriteReadRuns := by
  intro s adr n b as out inn hq hpc hadr hwl hout hrl hinn hfresh hbytes hans
  obtain rfl : n = out.length := by simp [hbytes]
  exact ⟨_, writeRead_runs hq hpc hadr hwl hout hrl hinn hfresh hbytes hans, Memory.store_reads s.rbuf inn⟩
end


section
/-! SUPPORT. The start and stop edges in a transaction's events (R13, R105) and how many events and half-period delays they
are (R135), summed over the parts of the frame; and the settlement of O41 and O42. -/

namespace Sys2Proof.Machine

/-! ### Edges -/

/-- The events lead the lines from `p` to `q` with `n` start edges and `k` stop edges. -/
def Edges (p : Drv × Drv) (es : List Event) (q : Drv × Drv) (n k : Nat) : Prop :=
  edgeCounts p es = (n, k) ∧ es.foldl Event.lines p = q

section

variable {p q r : Drv × Drv} {es es' : List Event} {n k n' k' : Nat}

theorem Edges.nil (p : Drv × Drv) : Edges p [] p 0 0 := ⟨rfl, rfl⟩

theorem edgeCounts_append (p : Drv × Drv) (es es' : List Event) :
    edgeCounts p (es ++ es') = ((edgeCounts p es).1 + (edgeCounts (es.foldl Event.lines p) es').1,
      (edgeCounts p es).2 + (edgeCounts (es.foldl Event.lines p) es').2) := by
  induction es generalizing p with
  | nil => simp [edgeCounts]
  | cons e es ih => simp [edgeCounts, ih, Nat.add_right_comm]

theorem Edges.append (h : Edges p es q n k) (h' : Edges q es' r n' k') : Edges p (es ++ es') r (n + n') (k + k') := by
  obtain ⟨hc, rfl⟩ := h
  obtain ⟨hc', rfl⟩ := h'
  exact ⟨by rw [edgeCounts_append, hc, hc'], List.foldl_append⟩

/-- Parts without an edge that leave the lines as they found them. -/
theorem Edges.flatMap {ι : Type} {f : ι → List Event} (h : ∀ x, Edges p (f x) p 0 0) (xs : List ι) :
    Edges p (xs.flatMap f) p 0 0 := by
  induction xs with
  | nil => exact Edges.nil p
  | cons x xs ih => exact (h x).append ih

end

section

variable (h : Nat)

/-- START has one start edge, from either pair of lines a transaction begins in and from between two bytes. -/
theorem startEvents_edges (c : Bit) {p : Drv × Drv} (hp : entryLines p = true ∨ p = (.pulled, .pulled)) :
    Edges p (startEvents h c) (.pulled, .pulled) 1 0 := by
  have hcases : (p = (.unknown, .unknown) ∨ p = (.released, .released)) ∨ p = (.pulled, .pulled) :=
    hp.imp_left fun hp => by simpa [entryLines, bothReleased] using hp
  rcases BitVec.eq_zero_or_eq_one c with rfl | rfl <;> rcases hcases with (rfl | rfl) | rfl <;> exact ⟨rfl, rfl⟩

/-- STOP has one stop edge. -/
theorem stopEvents_edges (c : Bit) : Edges (.pulled, .pulled) (stopEvents h c) (.released, .released) 0 1 := by
  rcases BitVec.eq_zero_or_eq_one c with rfl | rfl <;> exact ⟨rfl, rfl⟩

/-- Within a byte the data line moves only under a pulled clock. -/
theorem readBitEvents_edges (u c b : Bit) : Edges (.pulled, .pulled) (readBitEvents h u c b)
    (.pulled, .pulled) 0 0 := by
  rcases BitVec.eq_zero_or_eq_one c with rfl | rfl <;> exact ⟨rfl, rfl⟩

theorem writeBitEvents_edges (bit u c : Bit) :
    Edges (.pulled, .pulled) (writeBitEvents h bit u c) (.pulled, .pulled) 0 0 := by
  rcases BitVec.eq_zero_or_eq_one c with rfl | rfl <;> rcases BitVec.eq_zero_or_eq_one bit with rfl | rfl <;>
    exact ⟨rfl, rfl⟩

theorem writeByteEvents_edges (byte : Byte) (lv : ByteLevels) (ack : Bit) :
    Edges (.pulled, .pulled) (writeByteEvents h byte lv ack) (.pulled, .pulled) 0 0 :=
  (Edges.flatMap (fun _ => writeBitEvents_edges h _ _ _) bitOrder).append (readBitEvents_edges h _ _ _)

theorem readByteEvents_edges (sa : Bit) (v : Byte) (lv : ByteLevels) :
    Edges (.pulled, .pulled) (readByteEvents h sa v lv) (.pulled, .pulled) 0 0 :=
  (Edges.flatMap (fun _ => readBitEvents_edges h _ _ _) bitOrder).append (writeBitEvents_edges h _ _ _)

theorem sendEvents_edges (bytes : List Byte) (lv : Nat → ByteLevels) (ack : Nat → Bit) :
    Edges (.pulled, .pulled) (sendEvents h bytes lv ack) (.pulled, .pulled) 0 0 :=
  Edges.flatMap (fun _ => writeByteEvents_edges h _ _ _) _

theorem receiveEvents_edges (bytes : List Byte) (lv : Nat → ByteLevels) :
    Edges (.pulled, .pulled) (receiveEvents h bytes lv) (.pulled, .pulled) 0 0 :=
  Edges.flatMap (fun _ => readByteEvents_edges h _ _ _) _

section

variable {p : Drv × Drv} (hp : entryLines p = true) (adr : Addr) (out inn : List Byte) (b : BusLevels)

include hp

theorem writeEvents_edges : Edges p (writeEvents h adr out b) (.released, .released) 1 1 :=
  (((startEvents_edges h _ (.inl hp)).append (writeByteEvents_edges h _ _ _)).append
    (sendEvents_edges h _ _ _)).append (stopEvents_edges h _)

theorem readEvents_edges : Edges p (readEvents h adr inn b) (.released, .released) 1 1 :=
  (((startEvents_edges h _ (.inl hp)).append (writeByteEvents_edges h _ _ _)).append
    (receiveEvents_edges h _ _)).append (stopEvents_edges h _)

theorem writeReadEvents_edges : Edges p (writeReadEvents h adr out inn b) (.released, .released) 2 1 :=
  ((((((startEvents_edges h _ (.inl hp)).append (writeByteEvents_edges h _ _ _)).append
    (sendEvents_edges h _ _ _)).append (startEvents_edges h _ (.inr rfl))).append
    (writeByteEvents_edges h _ _ _)).append (receiveEvents_edges h _ _)).append (stopEvents_edges h _)

end

/-! ### Counts -/

/-- The events are `n` in number, `k` of them delays of the half-bit-period `h`. -/
def Counts (es : List Event) (n k : Nat) : Prop := es.length = n ∧ delayCount h es = k

end

section

variable {h : Nat} {es es' : List Event} {n k n' k' : Nat}

theorem Counts.append (hes : Counts h es n k) (hes' : Counts h es' n' k') : Counts h (es ++ es') (n + n') (k + k') := by
  obtain ⟨rfl, rfl⟩ := hes
  obtain ⟨rfl, rfl⟩ := hes'
  exact ⟨List.length_append, List.countP_append⟩

/-- Parts of one size each. -/
theorem Counts.flatMap {ι : Type} {f : ι → List Event} (hf : ∀ x, Counts h (f x) n k) (xs : List ι) :
    Counts h (xs.flatMap f) (n * xs.length) (k * xs.length) := by
  induction xs with
  | nil => exact ⟨rfl, rfl⟩
  | cons x xs ih => simpa [Nat.mul_succ, Nat.add_comm] using (hf x).append ih

theorem pullEvents_counts (L : Line) : Counts h (pullEvents h L) 3 1 :=
  ⟨rfl, by simp [delayCount, pullEvents]⟩

theorem sampleEvents_counts (L : Line) (v : Bit) : Counts h (sampleEvents h L v) 3 1 :=
  ⟨rfl, by simp [delayCount, sampleEvents]⟩

/-- Without clock stretching. -/
theorem waitEvents_counts {c : Bit} (hc : c = 1) : Counts h (waitEvents h c) 4 2 := by
  subst hc
  exact ⟨rfl, by simp [delayCount, waitEvents, sampleEvents]⟩

theorem startEvents_counts {c : Bit} (hc : c = 1) : Counts h (startEvents h c) 13 5 :=
  (((sampleEvents_counts _ _).append (waitEvents_counts hc)).append (pullEvents_counts _)).append (pullEvents_counts _)

theorem stopEvents_counts {c : Bit} (hc : c = 1) : Counts h (stopEvents h c) 7 3 :=
  (waitEvents_counts hc).append (sampleEvents_counts _ _)

theorem readBitEvents_counts {c : Bit} (hc : c = 1) (u b : Bit) : Counts h (readBitEvents h u c b) 16 6 :=
  ((((sampleEvents_counts _ _).append (waitEvents_counts hc)).append (sampleEvents_counts _ _)).append
    (pullEvents_counts _)).append (pullEvents_counts _)

theorem writeBitEvents_counts {c : Bit} (hc : c = 1) (bit u : Bit) : Counts h (writeBitEvents h bit u c) 13 5 := by
  have hsend : Counts h (if bit = 1 then sampleEvents h .sda u else pullEvents h .sda) 3 1 := by
    split
    · exact sampleEvents_counts _ _
    · exact pullEvents_counts _
  exact ((hsend.append (waitEvents_counts hc)).append (pullEvents_counts _)).append (pullEvents_counts _)

theorem writeByteEvents_counts {lv : ByteLevels} (hlv : lv.clockHigh) (byte : Byte) (ack : Bit) :
    Counts h (writeByteEvents h byte lv ack) 120 46 :=
  (Counts.flatMap (fun i => writeBitEvents_counts (hlv.1 i) _ _) bitOrder).append (readBitEvents_counts hlv.2 _ _)

theorem readByteEvents_counts {lv : ByteLevels} (hlv : lv.clockHigh) (sa : Bit) (v : Byte) :
    Counts h (readByteEvents h sa v lv) 141 53 :=
  (Counts.flatMap (fun i => readBitEvents_counts (hlv.1 i) _ _) bitOrder).append (writeBitEvents_counts hlv.2 _ _)

theorem sendEvents_counts {lv : Nat → ByteLevels} (hlv : ∀ i, (lv i).clockHigh) (bytes : List Byte) (ack : Nat → Bit) :
    Counts h (sendEvents h bytes lv ack) (120 * bytes.length) (46 * bytes.length) := by
  have := Counts.flatMap (fun p : Byte × Nat => writeByteEvents_counts (h := h) (hlv p.2) p.1 (ack p.2)) bytes.zipIdx
  rwa [List.length_zipIdx] at this

theorem receiveEvents_counts {lv : Nat → ByteLevels} (hlv : ∀ i, (lv i).clockHigh) (bytes : List Byte) :
    Counts h (receiveEvents h bytes lv) (141 * bytes.length) (53 * bytes.length) := by
  have := Counts.flatMap (fun p : Byte × Nat =>
    readByteEvents_counts (h := h) (hlv p.2) (if p.2 + 1 = bytes.length then 0 else 1) p.1) bytes.zipIdx
  rwa [List.length_zipIdx] at this

variable {b : BusLevels} (hb : b.clockHigh) (adr : Addr) (out inn : List Byte)

include hb

theorem writeEvents_counts :
    Counts h (writeEvents h adr out b) (20 + 120 * (1 + out.length)) (8 + 46 * (1 + out.length)) := by
  obtain ⟨hstart, -, hstop, haddress, -, hsent, -⟩ := hb
  have := (((startEvents_counts (h := h) hstart).append (writeByteEvents_counts haddress
    (adr ++ (0 : Bit)) b.addressAck1)).append
    (sendEvents_counts hsent out b.sentAck)).append (stopEvents_counts hstop)
  exact ⟨this.1.trans (by omega), this.2.trans (by omega)⟩

theorem readEvents_counts :
    Counts h (readEvents h adr inn b) (140 + 141 * inn.length) (54 + 53 * inn.length) := by
  obtain ⟨hstart, -, hstop, haddress, -, -, hreceived⟩ := hb
  have := (((startEvents_counts (h := h) hstart).append (writeByteEvents_counts haddress
    (adr ++ (1 : Bit)) b.addressAck1)).append
    (receiveEvents_counts hreceived inn)).append (stopEvents_counts hstop)
  exact ⟨this.1.trans (by omega), this.2.trans (by omega)⟩

theorem writeReadEvents_counts :
    Counts h (writeReadEvents h adr out inn b) (153 + 120 * (1 + out.length) + 141 * inn.length)
      (59 + 46 * (1 + out.length) + 53 * inn.length) := by
  obtain ⟨hstart, hrestart, hstop, haddress, hagain, hsent, hreceived⟩ := hb
  have := ((((((startEvents_counts (h := h) hstart).append
    (writeByteEvents_counts haddress (adr ++ (0 : Bit)) b.addressAck1)).append
    (sendEvents_counts hsent out b.sentAck)).append (startEvents_counts hrestart)).append
    (writeByteEvents_counts hagain (adr ++ (1 : Bit)) b.addressAck2)).append
    (receiveEvents_counts hreceived inn)).append (stopEvents_counts hstop)
  exact ⟨this.1.trans (by omega), this.2.trans (by omega)⟩

end

/-! ### The events a transaction appends -/

section

variable {s : State} {adr : Addr} {out inn : List Byte} {b : BusLevels} {P : List Event → Prop}

theorem WriteBegins.endsWith (h : WriteBegins s adr out b) (hP : P (writeEvents s.halfUs.toNat adr out b)) :
    EndsWith s P := by
  obtain ⟨as, hans⟩ := h.answered
  exact ⟨_, _, write_runs h.alone h.entry h.address h.toSend h.fits h.fresh h.sent hans, rfl, rfl, rfl, hP⟩

theorem ReadBegins.endsWith (h : ReadBegins s adr inn b) (hP : P (readEvents s.halfUs.toNat adr inn b)) :
    EndsWith s P := by
  obtain ⟨as, hans⟩ := h.answered
  exact ⟨_, _, read_runs h.alone h.entry h.address h.toReceive h.fits h.fresh hans, rfl, rfl, rfl, hP⟩

theorem WriteReadBegins.endsWith (h : WriteReadBegins s adr out inn b)
    (hP : P (writeReadEvents s.halfUs.toNat adr out inn b)) : EndsWith s P := by
  obtain ⟨as, hans⟩ := h.answered
  exact ⟨_, _, writeRead_runs h.alone h.entry h.address h.toSend h.outFits h.toReceive h.innFits h.fresh h.sent
    hans, rfl, rfl, rfl, hP⟩

end

end Sys2Proof.Machine

open Sys2Proof Sys2Proof.Machine

/-- Settles O41: each START has its one start edge and STOP its one stop edge; no byte has any. -/
theorem transactionEdges : Obligations.TransactionEdges := fun _ adr out inn b hentry =>
  ⟨fun h => h.endsWith (writeEvents_edges _ hentry adr out b).1,
    fun h => h.endsWith (readEvents_edges _ hentry adr inn b).1,
    fun h => h.endsWith (writeReadEvents_edges _ hentry adr out inn b).1⟩

/-- Settles O42: the counts of the parts of the frame, summed. -/
theorem transactionCounts : Obligations.TransactionCounts := fun _ adr out inn _ hb =>
  ⟨fun h => h.endsWith (writeEvents_counts hb adr out), fun h => h.endsWith (readEvents_counts hb adr inn),
    fun h => h.endsWith (writeReadEvents_counts hb adr out inn)⟩
end


section
/-! SUPPORT. A data line held low at STOP (R195): no frame of a transaction ever comes to the label before its end, and the
settlement of O43. -/

namespace Sys2Proof.Machine

/-! ### What a stuck transaction never reaches -/

/-- The labels a transaction comes to only when a STOP has returned, and those of NEW. -/
def Pos.pastStop : Pos → Bool
  | .new _ | .write .a4 | .read .a4 | .writeRead .a7 | .stop .e3 => true
  | _ => false

/-- The labels that are none of those and look at no level that STOP has sampled. -/
def Pos.isCalm : Pos → Bool
  | .new _ | .write .a4 | .read .a4 | .writeRead .a7 | .stop .e2 | .stop .e3 | .release .l3 => false
  | _ => true

theorem Pos.isCalm_iff (p : Pos) : p.isCalm = true ↔ p.pastStop = false ∧ p ≠ .stop .e2 ∧ p ≠ .release .l3 := by
  cases p <;> rename_i l <;> cases l <;> decide

/-- The labels that call STOP. -/
def Pos.callsStop : Pos → Bool
  | .write .a3 | .read .a3 | .writeRead .a6 => true
  | _ => false

/-- No STOP has returned to the frame, and RELEASE has returned a 0 to STOP's E1 if it has returned. -/
def Frame.stuck (f : Frame) : Prop :=
  f.pos.pastStop = false ∧ (f.pos.callsStop = true → f.returned = none) ∧
    (f.pos = .stop .e1 → ∀ v, f.returned = some v → asBit v = 0)

/-- The data samples STOP has taken read 0, wherever the level is on its way to E2. -/
def State.stuck (s : State) : Prop :=
  (∀ f ∈ s.pc, f.stuck) ∧ (∀ r rest, s.pc = ⟨.stop .e2, r⟩ :: rest → s.locals.stopD = some 0) ∧
    ∀ r g rest, s.pc = ⟨.release .l3, r⟩ :: g :: rest → g.pos = .stop .e1 → s.locals.releaseV = some 0

/-- The step keeps a stuck transaction running: no response is given and the host is not attended to. -/
def State.goesOn (s t : State) : Prop :=
  t.stuck ∧ t.busy = s.busy ∧ t.requests = s.requests ∧ t.responses = s.responses ∧ t.pc ≠ []

section

variable {i : Instr} {s t : State} {p q : Pos} {r : Option Byte} {f g : Frame} {rest : List Frame} {e : Event} {o : Out}

theorem State.stuck_of_calm (ht : t.pc = f :: rest) (hf : f.stuck) (hcalm : f.pos.isCalm = true)
    (hrest : ∀ g ∈ rest, g.stuck) : t.stuck := by
  obtain ⟨-, he2, hl3⟩ := f.pos.isCalm_iff.mp hcalm
  refine ⟨by rw [ht]; exact List.forall_mem_cons.mpr ⟨hf, hrest⟩, fun r rs h => ?_, fun r g rs h => ?_⟩
  · exact absurd (congrArg Frame.pos (List.cons.inj (ht.symm.trans h)).1) he2
  · exact absurd (congrArg Frame.pos (List.cons.inj (ht.symm.trans h)).1) hl3

/-- A label gone to, no call having returned at it. -/
theorem State.stuck_of_goto (ht : t.pc = ⟨q, none⟩ :: rest) (hcalm : q.isCalm = true) (hrest : ∀ g ∈ rest, g.stuck) :
    t.stuck :=
  State.stuck_of_calm ht ⟨(q.isCalm_iff.mp hcalm).1, fun _ => rfl, fun _ _ => nofun⟩ hcalm hrest

/-! #### The labels a statement goes to -/

theorem Pos.isCalm_of_steps (hq : p.steps q = true) (hs : p.isSilent = true ∨ p.isDelay = true)
    (hp : p.pastStop = false) (he2 : p ≠ .stop .e2) : q.isCalm = true := by
  unfold Pos.steps at hq
  split at hq <;> trivial

theorem Pos.isCalm_of_resumes (hq : p.resumes q = true) (hp : p.callsStop = false) (he1 : p ≠ .stop .e1) :
    q.isCalm = true := by
  unfold Pos.resumes at hq
  split at hq <;> trivial

theorem Issues.isCalm (he : Issues i p e q) (hp : p.pastStop = false) (hl2 : p ≠ .release .l2) : q.isCalm = true := by
  cases he <;> trivial

theorem entryOf_isCalm {c : Instr} (hc : c ≠ .new) : (entryOf c).isCalm = true := by
  cases c <;> trivial

/-- Nothing is called as NEW. -/
theorem Pos.not_calls_new {c : Instr} (hc : p.calls (opOf c) = true) : c ≠ .new := by
  rintro rfl
  unfold Pos.calls at hc
  split at hc <;> trivial

/-- What returns is none of STOP, RECOVER and RELEASE, but for E3 and L3. -/
theorem Pos.op_of_isLast (hp : p.isLast = true) (hpast : p.pastStop = false) (hl3 : p ≠ .release .l3) :
    p.op ≠ .stop ∧ p.op ≠ .recover ∧ p.op ≠ .release := by
  unfold Pos.isLast at hp
  split at hp <;> trivial

theorem Pos.waits_calm {o : Op} (hc : p.calls o = true) (hpast : p.pastStop = false)
    (ho : o ≠ .stop ∧ o ≠ .recover ∧ o ≠ .release) : p.isCalm = true ∧ p.callsStop = false ∧ p ≠ .stop .e1 := by
  obtain ⟨hstop, hrecover, hrelease⟩ := ho
  unfold Pos.calls at hc
  split at hc <;> trivial

theorem Pos.waits_for_release (hc : p.calls .release = true) : p.isCalm = true ∧ p.callsStop = false := by
  unfold Pos.calls at hc
  split at hc <;> trivial

/-! #### Statements that look at no level STOP has sampled -/

theorem Effect.goesOn (h : Effect i s p r o) (hpc : s.pc = ⟨p, r⟩ :: rest) (hlive : s.live) (hs : s.stuck)
    (hans : ∃ v, s.nextAnswer = .ok v) (he1 : p ≠ .stop .e1) (he2 : p ≠ .stop .e2) (hl2 : p ≠ .release .l2)
    (hl3 : p ≠ .release .l3) : ∃ t, o = .next t ∧ s.goesOn t := by
  obtain ⟨⟨hpast, hcalls, -⟩, hrest⟩ := List.forall_mem_cons.mp (hpc ▸ hs.1 : ∀ f ∈ ⟨p, r⟩ :: rest, f.stuck)
  have hnew (l : NewLabel) : p ≠ .new l := by
    rintro rfl
    exact nomatch hpast
  cases h with
  | move q l hq =>
    refine ⟨_, rfl, State.stuck_of_goto (q := q) (rest := rest) (by simp [hpc]) ?_ hrest, by simp [State.busy],
      by simp, by simp, by simp⟩
    rcases hq with ⟨hq, hsilent⟩ | ⟨hr, hq⟩
    · exact Pos.isCalm_of_steps hq (.inl hsilent) hpast he2
    · exact Pos.isCalm_of_resumes hq (Bool.eq_false_iff.mpr fun h => hr (hcalls h)) he1
  | call c l hr hc =>
    refine ⟨_, rfl, State.stuck_of_goto (q := entryOf c) (rest := ⟨p, r⟩ :: rest) (by simp [hpc])
      (entryOf_isCalm (Pos.not_calls_new hc)) ?_, by simp [State.busy], by simp, by simp, by simp⟩
    exact (hpc ▸ hs.1 : ∀ f ∈ ⟨p, r⟩ :: rest, f.stuck)
  | tail c hc =>
    rcases hc with ⟨rfl, -⟩ | ⟨rfl, rfl⟩
    · exact absurd rfl he2
    · refine ⟨_, rfl, ?_⟩
      rw [State.tailcall_top hpc]
      exact ⟨State.stuck_of_goto (q := .stop .e0) rfl rfl hrest, rfl, rfl, rfl, nofun⟩
  | ret v hp =>
    cases rest with
    | nil =>
      have hcmd : stackWf s.pc = true := hlive.1
      rw [hpc] at hcmd
      unfold Pos.isLast at hp
      split at hp <;> trivial
    | cons g gs =>
      have hwf : stackWf s.pc = true := hlive.1
      rw [hpc] at hwf
      obtain ⟨⟨hgpast, -, -⟩, hgs⟩ := List.forall_mem_cons.mp hrest
      obtain ⟨hcalm, hgcalls, hge1⟩ := Pos.waits_calm (stackWf_cons_cons.mp hwf).2.1 hgpast
        (Pos.op_of_isLast hp hpast hl3)
      refine ⟨_, rfl, ?_⟩
      rw [State.ret_caller hpc]
      exact ⟨State.stuck_of_calm rfl ⟨hgpast, fun h => absurd (hgcalls.symm.trans h) nofun,
        fun h => absurd h hge1⟩ hcalm
        hgs, rfl, rfl, rfl, nofun⟩
  | delay us q hq hp =>
    exact ⟨_, rfl, State.stuck_of_goto (q := q) (rest := rest) (by simp [hpc])
      (Pos.isCalm_of_steps hq (.inr hp) hpast he2) hrest, by simp [State.busy], by simp, by simp, by simp⟩
  | event e q l he =>
    exact ⟨_, rfl, State.stuck_of_goto (q := q) (rest := rest) (by simp [hpc]) (he.isCalm hpast hl2) hrest,
      by simp [State.busy], by simp, by simp, by simp⟩
  | pinFault e k q he herr =>
    obtain ⟨v, hv⟩ := hans
    exact nomatch hv.symm.trans herr
  | positive _ hp | zero _ hp | configure _ hp => exact absurd hp (hnew _)
  | store j v hi =>
    refine ⟨_, rfl, State.stuck_of_goto (q := p) (rest := rest) (by simp [hpc]) ?_ hrest, by simp [State.busy], by simp,
      by simp, by simp⟩
    rcases hi with ⟨_, -, rfl⟩ | ⟨_, -, rfl⟩ <;> rfl
  | fault f h =>
    obtain ⟨-, hlv, hlen, hret, -⟩ := (State.live_cons hpc).mp hlive
    exact (h hlv hlen hret).elim

/-! #### The statements a stuck data line steers -/

/-- STOP's E1: its RELEASE is called, or has handed back a 0. -/
theorem stop_e1_goesOn (hpc : s.pc = ⟨.stop .e1, r⟩ :: rest) (hs : s.stuck) :
    ∃ t, exec .stop s = .next t ∧ s.goesOn t := by
  have hframes : ∀ f ∈ ⟨.stop .e1, r⟩ :: rest, f.stuck := hpc ▸ hs.1
  obtain ⟨⟨-, -, hzero⟩, hrest⟩ := List.forall_mem_cons.mp hframes
  cases r with
  | none => exact ⟨_, stop_e1.1 hpc, State.stuck_of_goto (q := .release .l0) rfl rfl hframes, rfl, rfl, rfl, nofun⟩
  | some v =>
    refine ⟨_, stop_e1.2 v hpc, ⟨?_, fun _ _ _ => congrArg some (hzero rfl v rfl), nofun⟩, rfl, rfl, rfl, nofun⟩
    exact List.forall_mem_cons.mpr ⟨⟨rfl, nofun, nofun⟩, hrest⟩

/-- STOP's E2 replaces STOP by RECOVER. -/
theorem stop_e2_goesOn (hpc : s.pc = ⟨.stop .e2, r⟩ :: rest) (hs : s.stuck) :
    ∃ t, exec .stop s = .next t ∧ s.goesOn t := by
  obtain ⟨-, hrest⟩ := List.forall_mem_cons.mp (hpc ▸ hs.1 : ∀ f ∈ ⟨.stop .e2, r⟩ :: rest, f.stuck)
  exact ⟨_, stop_e2_low (hs.2.1 r rest hpc) hpc, State.stuck_of_goto
    (q := .recover .v0) rfl rfl hrest, rfl, rfl, rfl, nofun⟩

/-- RELEASE's L2, in STOP a sample of the data line. -/
theorem release_l2_goesOn {L : Line} (hpc : s.pc = ⟨.release .l2, r⟩ :: rest) (hs : s.stuck)
    (hans : ∃ v, s.nextAnswer = .ok v) (hsample : s.atStopSample → s.nextAnswer = .ok 0) :
    ∃ t, exec (.release L) s = .next t ∧ s.goesOn t := by
  obtain ⟨v, hv⟩ := hans
  obtain ⟨-, hrest⟩ := List.forall_mem_cons.mp (hpc ▸ hs.1 : ∀ f ∈ ⟨.release .l2, r⟩ :: rest, f.stuck)
  refine ⟨_, (samplesThen_of_pinGetVal (fun v l => { l with releaseV := some v }) exec_release_l2).1 v hv hpc,
    ⟨List.forall_mem_cons.mpr ⟨⟨rfl, nofun, nofun⟩, hrest⟩, nofun, fun r' g rs h hg => ?_⟩, rfl, rfl, rfl, nofun⟩
  obtain ⟨-, rfl⟩ := List.cons.inj h
  obtain ⟨g, r''⟩ := g
  subst hg
  have hzero := hsample ⟨r, r'', rs, hpc⟩
  rw [hv] at hzero
  exact congrArg some (PinAnswer.ok.inj hzero)

/-- RELEASE's L3, in STOP the return of a 0. -/
theorem release_l3_goesOn {L : Line} (hpc : s.pc = ⟨.release .l3, r⟩ :: rest) (hlive : s.live) (hs : s.stuck) :
    ∃ t, exec (.release L) s = .next t ∧ s.goesOn t := by
  have hwf : stackWf s.pc = true := hlive.1
  rw [hpc] at hwf
  obtain ⟨-, hlv, -⟩ := (State.live_cons hpc).mp hlive
  obtain ⟨v, hv⟩ : ∃ v, s.locals.releaseV = some v := Option.isSome_iff_exists.mp
    (by simpa [State.liveAt] using hlv : _ ∧ _).2
  obtain ⟨-, hrest⟩ := List.forall_mem_cons.mp (hpc ▸ hs.1 : ∀ f ∈ ⟨.release .l3, r⟩ :: rest, f.stuck)
  cases rest with
  | nil => exact nomatch hwf
  | cons g gs =>
    obtain ⟨⟨hgpast, -, -⟩, hgs⟩ := List.forall_mem_cons.mp hrest
    refine ⟨_, exec_release_l3 hv hpc, ?_⟩
    rw [State.ret_caller hpc]
    obtain ⟨hcalm, hgcalls⟩ := Pos.waits_for_release (stackWf_cons_cons.mp hwf).2.1
    have hzero (hg : g.pos = .stop .e1) (x : Byte) (hx : some (ofBit v) = some x) : asBit x = 0 := by
      cases hx
      rw [asBit_ofBit]
      exact Option.some.inj (hv.symm.trans (hs.2.2 r g gs hpc hg))
    exact ⟨State.stuck_of_calm rfl ⟨hgpast, fun h => absurd (hgcalls.symm.trans h) nofun, hzero⟩ hcalm hgs, rfl,
      rfl, rfl, nofun⟩

/-! ### The run -/

/-- Whatever statement is on top, a stuck transaction goes on. -/
theorem exec_goesOn (hpc : s.pc = ⟨p, r⟩ :: rest) (hi : s.operationAt p = some i) (hlive : s.live) (hs : s.stuck)
    (hans : ∃ v, s.nextAnswer = .ok v) (hsample : s.atStopSample → s.nextAnswer = .ok 0) :
    ∃ t, exec i s = .next t ∧ s.goesOn t := by
  by_cases he1 : p = .stop .e1
  · subst he1
    obtain rfl : .stop = i := Option.some.inj hi
    exact stop_e1_goesOn hpc hs
  by_cases he2 : p = .stop .e2
  · subst he2
    obtain rfl : .stop = i := Option.some.inj hi
    exact stop_e2_goesOn hpc hs
  by_cases hl2 : p = .release .l2
  · subst hl2
    obtain ⟨L, -, rfl⟩ := Option.map_eq_some_iff.mp hi
    exact release_l2_goesOn hpc hs hans hsample
  by_cases hl3 : p = .release .l3
  · subst hl3
    obtain ⟨L, -, rfl⟩ := Option.map_eq_some_iff.mp hi
    exact release_l3_goesOn hpc hlive hs
  exact (exec_effect hpc (State.operationAt_op hi)).goesOn hpc hlive hs hans he1 he2 hl2 hl3

/-- The transaction is running and cannot end. -/
def State.hangs (s : State) : Prop := s.quiet ∧ s.live ∧ s.stuck ∧ s.pc ≠ []

theorem step_hangs (h : s.hangs) (hans : ∃ v, s.nextAnswer = .ok v) (hsample : s.atStopSample → s.nextAnswer = .ok 0) :
    ∃ t, step s = .next t ∧ t.hangs ∧ t.busy = s.busy ∧ t.responses = s.responses := by
  obtain ⟨hq, hlive, hs, hne⟩ := h
  obtain ⟨⟨p, r⟩, rest, hpc⟩ := List.exists_cons_of_ne_nil hne
  obtain ⟨i, hi⟩ : ∃ i, s.operationAt p = some i := by
    cases hi : s.operationAt p with
    | some i => exact ⟨i, rfl⟩
    | none =>
      obtain ⟨-, hlv, -⟩ := (State.live_cons hpc).mp hlive
      exact absurd (hlv.symm.trans (liveAt_of_operationAt_none hi)) nofun
  obtain ⟨t, ht, hstuck, hbusy, hreq, hresp, hpc'⟩ := exec_goesOn hpc hi hlive hs hans hsample
  have hstep : step s = .next t := (step_of_quiet hq hpc hi).trans ht
  exact ⟨t, hstep, ⟨State.quiet_congr hreq hbusy hq, (noStepFaults s hlive).2.2 t hstep, hstuck, hpc'⟩, hbusy, hresp⟩

theorem run_hangs (n : Nat) (h : s.hangs)
    (hans : ∀ k u, k < n → run k s = .next u → (∃ v, u.nextAnswer = .ok v) ∧ (u.atStopSample → u.nextAnswer = .ok 0)) :
    ∃ t, run n s = .next t ∧ t.hangs ∧ t.busy = s.busy ∧ t.responses = s.responses := by
  induction n generalizing s with
  | zero => exact ⟨s, rfl, h, rfl, rfl⟩
  | succ n ih =>
    obtain ⟨hok, hsample⟩ := hans 0 s (Nat.succ_pos n) rfl
    obtain ⟨u, hstep, hu, hb, hr⟩ := step_hangs h hok hsample
    obtain ⟨t, hrun, ht, hb', hr'⟩ := ih hu fun k w hk hw =>
      hans (k + 1) w (Nat.succ_lt_succ hk) ((run_succ_of_next hstep k).trans hw)
    exact ⟨t, (run_succ_of_next hstep n).trans hrun, ht, hb'.trans hb, hr'.trans hr⟩

/-- An accepted transaction has not come to STOP yet. -/
theorem State.stuck_of_entry (hcalm : q.isCalm = true) (hpc : s.pc = [⟨q, none⟩]) : s.stuck :=
  State.stuck_of_goto hpc hcalm nofun

end

end Sys2Proof.Machine

open Sys2Proof Sys2Proof.Machine

/-- Settles O43: E3, and so the label after the call of STOP, is not reached while STOP's samples read 0. -/
theorem stuckDataLineNeverEnds : Obligations.StuckDataLineNeverEnds := by
  intro n s hq hbusy hlive hentry hans
  have hhangs : s.hangs := by
    rcases hentry with hpc | hpc | hpc <;>
      exact ⟨hq, hlive, State.stuck_of_entry rfl hpc, by rw [hpc]; nofun⟩
  obtain ⟨t, hrun, ⟨-, -, -, hne⟩, hb, hr⟩ := run_hangs n hhangs hans
  exact ⟨t, hrun, hb.trans hbusy, hne, hr⟩
end
